-- ==== Sys2Proof/Word.lean ====
section
/-! DEFINITION. The word types of the machine: an 8-bit byte and a 16-bit address (spec/00_scope.md R4, section 6.1). -/

namespace Sys2Proof

/-- A byte: the width of a memory cell, of `SP`, `A`, `X`, `Y` and of every operand (R4). An unsigned bit pattern. -/
abbrev Byte := BitVec 8

/-- An address: the width of `pc` and of the index into `Mem` (R4). All its arithmetic is modulo 65536 (R34). -/
abbrev Addr := BitVec 16

end Sys2Proof
end

