-- ==== Sys2Proof/Config.lean ====
section
/-! DEFINITION. The implementation parameters of spec/00_scope.md R4 and R5: the ten open reset values, the constants of
the pushed status byte, BRK_SKIP, and the fixed addresses. -/

namespace Sys2Proof

/-- The ten OPEN parameters `RESET_C` ... `RESET_SP` (R5, R22; D10): one fixed value each, the same at every power-on.
`State.powerOn` takes them as an argument, so that a claim about power-on can be made for every value. -/
structure ResetValues where
  /-- `RESET_C` -/
  c : Bool
  /-- `RESET_Z` -/
  z : Bool
  /-- `RESET_I` -/
  i : Bool
  /-- `RESET_D` -/
  d : Bool
  /-- `RESET_V` -/
  v : Bool
  /-- `RESET_N` -/
  n : Bool
  /-- `RESET_A` -/
  a : Byte
  /-- `RESET_X` -/
  x : Byte
  /-- `RESET_Y` -/
  y : Byte
  /-- `RESET_SP` -/
  sp : Byte
deriving DecidableEq, Repr

/-- DESIGN CHOICE (log entry 1, unsafe): the values `State.reset` uses. The spec leaves all ten open and suggests these
for a runner (R22, D10); no claim may rest on them unless it names them as a premise. -/
def Config.suggestedReset : ResetValues where
  c := false
  z := false
  i := true
  d := false
  v := false
  n := false
  a := 0x00
  x := 0x00
  y := 0x00
  sp := 0xFD

/-- `PUSH_BIT5` (R5, R15; D5): bit 5 of a pushed status byte. -/
def Config.pushBit5 : Bool := true

/-- `PUSH_BIT4` (R5, R15; D5): bit 4, the B position, of a pushed status byte, by PHP and BRK alike. -/
def Config.pushBit4 : Bool := true

/-- `BRK_SKIP` (R5, R163; D7): the bytes BRK fetches and discards after its opcode before it pushes `pc`. -/
def Config.brkSkip : Nat := 0

/-- The first address of the stack page 0x0100 to 0x01FF (R4, R12). -/
def Config.stackPage : Addr := 0x0100

/-- Where the reset vector has its low byte (R4, R40). -/
def Config.resetVectorLow : Addr := 0xFFFC

/-- Where the reset vector has its high byte (R4, R40). -/
def Config.resetVectorHigh : Addr := 0xFFFD

/-- Where the software-interrupt vector has its low byte (R4, R40). -/
def Config.brkVectorLow : Addr := 0xFFFE

/-- Where the software-interrupt vector has its high byte (R4, R40). -/
def Config.brkVectorHigh : Addr := 0xFFFF

end Sys2Proof
end

