-- ==== Sys2Proof/Machine/Bits.lean ====
section
/-! DEFINITION. Byte order, zero and sign extension (spec/00_scope.md section 6.1, 20_memory.md R35, 30_encoding.md R52). -/

namespace Sys2Proof

/-- `{hi, lo}`: `hi` supplies bits 15:8, `lo` bits 7:0 (section 6.1). -/
def joinBytes (hi lo : Byte) : Addr := hi ++ lo

/-- `v[7:0]`. -/
def lowByte (v : Addr) : Byte := v.extractLsb' 0 8

/-- `v[15:8]`. -/
def highByte (v : Addr) : Byte := v.extractLsb' 8 8

/-- `zext_16(b)`: the byte widened with zero bits (section 6.1). -/
def zext16 (b : Byte) : Addr := b.setWidth 16

/-- `sext_16(b)`: the byte widened by copying its top bit (section 6.1). -/
def sext16 (b : Byte) : Addr := b.signExtend 16

end Sys2Proof
end

