-- ==== Sys2Proof/Machine/Memory.lean ====
section
/-! DEFINITION. `Mem`, the 65536 bytes of spec/10_state.md R19 and 20_memory.md R30, as a list of (address, byte) pairs in
one canonical form: addresses strictly rising, all below 65536, and no entry equal to what an unlisted address reads as. -/

namespace Sys2Proof.Machine

/-- The listed bytes of `Mem`, in the canonical form that `Memory.wf` checks (log entry 4). -/
abbrev Memory := List Host.Cell

/-- The number of addresses (R30). -/
def Memory.size : Nat := 65536

/-- What an unlisted address reads as: memory is zero after power-on (R22, R42). -/
def Memory.unlisted : Byte := 0x00

/-- `Mem` as `power_on()` leaves it: every byte is zero (R210), so nothing is listed. -/
def Memory.zeroed : Memory := []

/-- The byte at address `k` (R31). -/
def Memory.read : Memory → Nat → Byte
  | [], _ => Memory.unlisted
  | (k', v) :: rest, k => if k = k' then v else Memory.read rest k

/-- The memory with address `k` no longer listed. -/
def Memory.erase (m : Memory) (k : Nat) : Memory := m.filter fun c => c.1 != k

/-- The entry `(k, v)` put in its place by address. -/
def Memory.insert : Memory → Nat → Byte → Memory
  | [], k, v => [(k, v)]
  | (k', v') :: rest, k, v => if k < k' then (k, v) :: (k', v') :: rest else (k', v') :: Memory.insert rest k v

/-- `Mem[k] <- v`, every other byte as it was (R32), in canonical form: writing the byte that an unlisted address reads as
removes the entry. -/
def Memory.write (m : Memory) (k : Nat) (v : Byte) : Memory :=
  if v = Memory.unlisted then Memory.erase m k else Memory.insert (Memory.erase m k) k v

/-- The canonical form of a list whose addresses all lie at or above `lo`. -/
def Memory.wfFrom : Nat → Memory → Bool
  | _, [] => true
  | lo, (k, v) :: rest => lo ≤ k && k < Memory.size && v != Memory.unlisted && Memory.wfFrom (k + 1) rest

/-- The canonical form: addresses strictly rising and below 65536, no entry equal to the unlisted byte. -/
def Memory.wf (m : Memory) : Bool := Memory.wfFrom 0 m

end Sys2Proof.Machine
end

