-- ==== Sys2Proof/Machine/State.lean ====
section
/-! DEFINITION. The whole architectural state (spec/10_state.md R10, R20), the reasons a step can stop, and the state after
power-on (R22, 70_reset_and_hazards.md R210). -/

namespace Sys2Proof.Machine

/-- The six independent booleans of R14. There is no stored B flag and no stored bit 5 (R15, R20). -/
structure Flags where
  /-- `C`, carry. -/
  c : Bool
  /-- `Z`, zero. -/
  z : Bool
  /-- `I`, interrupt disable: stored only (R193). -/
  i : Bool
  /-- `D`, decimal: stored only (R100). -/
  d : Bool
  /-- `V`, overflow. -/
  v : Bool
  /-- `N`, negative. -/
  n : Bool
deriving DecidableEq, Repr

/-- The state between two steps: exactly the tuple of R10. Every width is in the type (R21). -/
structure State where
  /-- The address of the next byte to fetch (R11). -/
  pc : Addr
  /-- The stack pointer, an offset in the stack page (R12). -/
  sp : Byte
  /-- The accumulator (R13). -/
  a : Byte
  /-- The index register X (R13). -/
  x : Byte
  /-- The index register Y (R13). -/
  y : Byte
  /-- The status flags (R14). -/
  flags : Flags
  /-- `Mem` (R19). -/
  mem : Memory
deriving DecidableEq, Repr

/-- Why a step ends with a fault. The hardware has one fault only (60_exceptions.md R190). -/
inductive Fault where
  /-- Raised by the dispatcher, on one of the 105 unmapped opcode bytes (R191): the byte, the address it was fetched
  from, and the state the faulting step leaves, from which `step()` remains usable (R192; log entry 2). Safe: this is
  the spec's own result `Fault(opcode, pc0)` with the spec's own state after it. -/
  | illegalOpcode (opcode : Byte) (pc0 : Addr) (after : State)
deriving DecidableEq, Repr

/-- Why an instruction has no meaning. -/
inductive Refusal where
  /-- Raised by an arm of `exec` that has no meaning yet, with the mnemonic of the opcode table. Safe: the model stops
  where the hardware goes on. Every arm has its meaning, so no step answers it. -/
  | notModelled (mnemonic : String)
deriving DecidableEq, Repr

/-- The outcome of a step or of an instruction. -/
abbrev Result := Host.Outcome State Fault Refusal

/-- `power_on()` (R210) with the ten open reset values `r`: memory zeroed first, then the flags and registers, then `pc`
from the reset vector, low byte at the lower address. -/
def State.powerOn (r : ResetValues) : State :=
  let mem := Memory.zeroed
  { pc := joinBytes (mem.read Config.resetVectorHigh.toNat) (mem.read Config.resetVectorLow.toNat)
    sp := r.sp
    a := r.a
    x := r.x
    y := r.y
    flags := { c := r.c, z := r.z, i := r.i, d := r.d, v := r.v, n := r.n }
    mem := mem }

/-- The machine right after reset. The memory and `pc` are the spec's (R22); the ten open values are log entry 1's. -/
def State.reset : State := State.powerOn Config.suggestedReset

end Sys2Proof.Machine
end

