-- ==== Sys2Proof/Machine/Flags.lean ====
section
/-! DEFINITION. Every flag computation and every 8-bit result (spec/10_state.md R15 to R18, 41_alu.md, 42_shift_incdec.md).
Each is a pure function of the operand bytes and the flags before. -/

namespace Sys2Proof.Machine

/-- A boolean as bit 0 of a byte. -/
def bitByte (b : Bool) : Byte := (BitVec.ofBool b).setWidth 8

/-- `SetZN(v)` (R18): `N` is bit 7, never bit 6 (90_conflicts.md C1). -/
def Flags.setZN (f : Flags) (v : Byte) : Flags := { f with z := v == 0, n := v.getLsbD 7 }

/-- The byte with bit 5 and bit 4 given and the six flags in their places (R15, R16). -/
def packBits (b5 b4 : Bool) (f : Flags) : Byte :=
  BitVec.ofBool f.n ++ BitVec.ofBool f.v ++ BitVec.ofBool b5 ++ BitVec.ofBool b4 ++
    BitVec.ofBool f.d ++ BitVec.ofBool f.i ++ BitVec.ofBool f.z ++ BitVec.ofBool f.c

/-- `PackP()` (R16): bits 5 and 4 are `PUSH_BIT5` and `PUSH_BIT4`. -/
def packP (f : Flags) : Byte := packBits Config.pushBit5 Config.pushBit4 f

/-- `UnpackP(v)` (R17): all six flags from the byte, bits 5 and 4 discarded. -/
def unpackP (v : Byte) : Flags where
  c := v.getLsbD 0
  z := v.getLsbD 1
  i := v.getLsbD 2
  d := v.getLsbD 3
  v := v.getLsbD 6
  n := v.getLsbD 7

/-- `zext_9(a) + zext_9(m) + zext_9(C)`, kept in 9 bits (R90, R99). -/
def sum9 (a m : Byte) (c : Bool) : BitVec 9 := a.setWidth 9 + m.setWidth 9 + (BitVec.ofBool c).setWidth 9

/-- The result and the flags of ADC (R90). `D` takes no part (R100). -/
def aluAdc (a m : Byte) (f : Flags) : Byte × Flags :=
  let s := sum9 a m f.c
  let r : Byte := s.setWidth 8
  (r, { f with
        c := s.getLsbD 8
        z := r == 0
        v := a.getLsbD 7 == m.getLsbD 7 && r.getLsbD 7 != a.getLsbD 7
        n := r.getLsbD 7 })

/-- The result and the flags of SBC (R91): R90 with the operand complemented. -/
def aluSbc (a m : Byte) (f : Flags) : Byte × Flags := aluAdc a (~~~m) f

/-- AND (R92). -/
def aluAnd (a m : Byte) (f : Flags) : Byte × Flags := (a &&& m, f.setZN (a &&& m))

/-- ORA (R93). -/
def aluOra (a m : Byte) (f : Flags) : Byte × Flags := (a ||| m, f.setZN (a ||| m))

/-- EOR (R94). -/
def aluEor (a m : Byte) (f : Flags) : Byte × Flags := (a ^^^ m, f.setZN (a ^^^ m))

/-- The flags of a compare of the register value `r` with `m` (R95 to R97). The old `C` is not an input. -/
def aluCompare (r m : Byte) (f : Flags) : Flags :=
  { f with c := decide (m ≤ r), z := r == m, n := (r - m).getLsbD 7 }

/-- The flags of BIT (R98): `N` and `V` from the operand itself, `Z` from the conjunction. -/
def aluBit (a m : Byte) (f : Flags) : Flags :=
  { f with z := (a &&& m) == 0, n := m.getLsbD 7, v := m.getLsbD 6 }

/-- ASL (R110). -/
def aluAsl (m : Byte) (f : Flags) : Byte × Flags :=
  let r := m <<< 1
  (r, Flags.setZN { f with c := m.getLsbD 7 } r)

/-- LSR (R111). -/
def aluLsr (m : Byte) (f : Flags) : Byte × Flags :=
  let r := m >>> 1
  (r, Flags.setZN { f with c := m.getLsbD 0 } r)

/-- ROL (R112): the old `C` enters bit 0. -/
def aluRol (m : Byte) (f : Flags) : Byte × Flags :=
  let r := (m <<< 1) ||| bitByte f.c
  (r, Flags.setZN { f with c := m.getLsbD 7 } r)

/-- ROR (R113): the old `C` enters bit 7. -/
def aluRor (m : Byte) (f : Flags) : Byte × Flags :=
  let r := (m >>> 1) ||| (bitByte f.c <<< 7)
  (r, Flags.setZN { f with c := m.getLsbD 0 } r)

/-- The increment of INC, INX and INY (R114, R116, R117). -/
def aluInc (m : Byte) (f : Flags) : Byte × Flags := (m + 1, f.setZN (m + 1))

/-- The decrement of DEC, DEX and DEY (R115, R118, R119). -/
def aluDec (m : Byte) (f : Flags) : Byte × Flags := (m - 1, f.setZN (m - 1))

end Sys2Proof.Machine
end

