-- ==== Sys2Proof/Machine/Ops.lean ====
section
/-! DEFINITION. The named operations over registers and memory (spec/20_memory.md R31 to R49), the classes of operand use
(40_addressing_modes.md R70, R84), the illegal-opcode fault (60_exceptions.md R191), and the software-interrupt entry and
return (44_control_flow.md R163, R164). -/

namespace Sys2Proof.Machine

/-- `MemRead(addr, 1)` (R31): never fails, changes nothing. -/
def State.memRead (s : State) (addr : Addr) : Byte := s.mem.read addr.toNat

/-- `MemWrite(addr, 1, v)` (R32): never fails, changes nothing else. -/
def State.memWrite (s : State) (addr : Addr) (v : Byte) : State := { s with mem := s.mem.write addr.toNat v }

/-- `Read16(lo_addr, hi_addr)` (R37). -/
def State.read16 (s : State) (loAddr hiAddr : Addr) : Addr := joinBytes (s.memRead hiAddr) (s.memRead loAddr)

/-- `Fetch()` (R33): the byte at `pc`, and the state with `pc` one further. -/
def State.fetch (s : State) : Byte × State := (s.memRead s.pc, { s with pc := s.pc + 1 })

/-- `n` fetches whose bytes are discarded (the `BRK_SKIP` of R5, D7). -/
def State.skipBytes : Nat → State → State
  | 0, s => s
  | n + 1, s => State.skipBytes n s.fetch.2

/-- The address a stack pointer denotes (R12). -/
def stackAddr (sp : Byte) : Addr := Config.stackPage + zext16 sp

/-- `Push(v)` (R48): the write, then the decrement. -/
def State.push (s : State) (v : Byte) : State :=
  { s.memWrite (stackAddr s.sp) v with sp := s.sp - 1 }

/-- `Pull()` (R49): the increment, then the read. Memory is not written. -/
def State.pull (s : State) : Byte × State := (s.memRead (stackAddr (s.sp + 1)), { s with sp := s.sp + 1 })

/-- Push of a 16-bit value, high byte first (R35, R161, R163). -/
def State.push16 (s : State) (v : Addr) : State := (s.push (highByte v)).push (lowByte v)

/-- Pull of a 16-bit value, low byte first (R162, R164). -/
def State.pull16 (s : State) : Addr × State :=
  let lo := s.pull
  let hi := lo.2.pull
  (joinBytes hi.1 lo.1, hi.2)

/-- An instruction of the read class that computes `A` and flags from `A`, the operand and the flags (R70, R84). -/
def State.accumulate (s : State) (op : Byte → Byte → Flags → Byte × Flags) (m : Byte) : State :=
  let p := op s.a m s.flags
  { s with a := p.1, flags := p.2 }

/-- A read-modify-write instruction on the byte at `ea`: one read, then one write of the same address (R70, R84). -/
def State.modifyMem (s : State) (op : Byte → Flags → Byte × Flags) (ea : Addr) : State :=
  let p := op (s.memRead ea) s.flags
  State.memWrite { s with flags := p.2 } ea p.1

/-- The same operation in mode ACC: the operand and the destination are `A`, memory is untouched (R70, R72). -/
def State.modifyA (s : State) (op : Byte → Flags → Byte × Flags) : State :=
  let p := op s.a s.flags
  { s with a := p.1, flags := p.2 }

/-- The same operation on `X` (R116, R118). -/
def State.modifyX (s : State) (op : Byte → Flags → Byte × Flags) : State :=
  let p := op s.x s.flags
  { s with x := p.1, flags := p.2 }

/-- The same operation on `Y` (R117, R119). -/
def State.modifyY (s : State) (op : Byte → Flags → Byte × Flags) : State :=
  let p := op s.y s.flags
  { s with y := p.1, flags := p.2 }

/-- `A <- v; SetZN(v)` (R130, R138, R139, R171). -/
def State.loadA (s : State) (v : Byte) : State := { s with a := v, flags := s.flags.setZN v }

/-- `X <- v; SetZN(v)` (R131, R136, R140). -/
def State.loadX (s : State) (v : Byte) : State := { s with x := v, flags := s.flags.setZN v }

/-- `Y <- v; SetZN(v)` (R132, R137). -/
def State.loadY (s : State) (v : Byte) : State := { s with y := v, flags := s.flags.setZN v }

/-- The software-interrupt entry of R163 (R195), from the state whose `pc` is to be saved: `pc` high, `pc` low and the
status byte are pushed, then `I` is set, then `pc` is read from the vector, after the pushes. -/
def State.enterInterrupt (s : State) : State :=
  let pushed := (s.push16 s.pc).push (packP s.flags)
  { pushed with
    flags := { pushed.flags with i := true }
    pc := pushed.read16 Config.brkVectorLow Config.brkVectorHigh }

/-- The return of R164 (R196): the status byte, then `pc`, low byte first; no increment. -/
def State.returnFromInterrupt (s : State) : State :=
  let p := s.pull
  let ret := State.pull16 { p.2 with flags := unpackP p.1 }
  { ret.2 with pc := ret.1 }

/-- `raise IllegalOpcode(opcode, pc0)` (R191): the step ends; `after` is the state it leaves, in which only the opcode
fetch has happened. Nothing is pushed, no vector is read, `I` is not set. -/
def raiseIllegalOpcode (opcode : Byte) (pc0 : Addr) (after : State) : Result :=
  .fault (.illegalOpcode opcode pc0 after)

end Sys2Proof.Machine
end

