-- ==== Sys2Proof/Syntax.lean ====
section
/-! DEFINITION. The instructions: one constructor per row of spec/opcode_table.json (151 rows, 30_encoding.md R54), with its
operand byte or its operand address, and the two columns of a row, mnemonic and addressing mode. -/

namespace Sys2Proof

/-- The 56 mnemonics (R54, R60). -/
inductive Mnemonic where
  | adc | sbc | and | ora | eor | cmp | cpx | cpy | bit | asl | lsr | rol | ror | inc | dec | inx | iny | dex
  | dey | lda | ldx | ldy | sta | stx | sty | tax | tay | txa | tya | tsx | txs | bcc | bcs | beq | bne | bmi
  | bpl | bvc | bvs | jmp | jsr | rts | brk | rti | pha | pla | php | plp | clc | sec | cli | sei | clv | cld
  | sed | nop
deriving DecidableEq, Repr

/-- The thirteen addressing modes (40_addressing_modes.md R71 to R83). -/
inductive Mode where
  | imp | acc | imm | zp | zpx | zpy | abs | abx | aby | izx | izy | rel | ind
deriving DecidableEq, Repr

/-- The length of an instruction in bytes, a function of its mode alone (R51, R57). -/
def Mode.length : Mode → Nat
  | .imp | .acc => 1
  | .imm | .zp | .zpx | .zpy | .izx | .izy | .rel => 2
  | .abs | .abx | .aby | .ind => 3

/-- An addressing mode with its operand: `d8` for the two-byte format F2, `a16` for the three-byte format F3 (R51). -/
inductive Addressing where
  | imp
  | acc
  | imm (d8 : Byte)
  | zp (d8 : Byte)
  | zpx (d8 : Byte)
  | zpy (d8 : Byte)
  | abs (a16 : Addr)
  | abx (a16 : Addr)
  | aby (a16 : Addr)
  | izx (d8 : Byte)
  | izy (d8 : Byte)
  | rel (d8 : Byte)
  | ind (a16 : Addr)
deriving DecidableEq, Repr

/-- The mode without its operand. -/
def Addressing.mode : Addressing → Mode
  | .imp => .imp
  | .acc => .acc
  | .imm _ => .imm
  | .zp _ => .zp
  | .zpx _ => .zpx
  | .zpy _ => .zpy
  | .abs _ => .abs
  | .abx _ => .abx
  | .aby _ => .aby
  | .izx _ => .izx
  | .izy _ => .izy
  | .rel _ => .rel
  | .ind _ => .ind

/-- The instructions. Each docstring names the row's assembler form, its semantic rule and its mode rule. -/
inductive Instr where
  /-- `ADC #$nn` (R90, R73). -/
  | adcImm (d8 : Byte)
  /-- `ADC $zz` (R90, R74). -/
  | adcZp (d8 : Byte)
  /-- `ADC $zz,X` (R90, R75). -/
  | adcZpx (d8 : Byte)
  /-- `ADC $hhll` (R90, R77). -/
  | adcAbs (a16 : Addr)
  /-- `ADC $hhll,X` (R90, R78). -/
  | adcAbx (a16 : Addr)
  /-- `ADC $hhll,Y` (R90, R79). -/
  | adcAby (a16 : Addr)
  /-- `ADC ($zz,X)` (R90, R80). -/
  | adcIzx (d8 : Byte)
  /-- `ADC ($zz),Y` (R90, R81). -/
  | adcIzy (d8 : Byte)
  /-- `SBC #$nn` (R91, R73). -/
  | sbcImm (d8 : Byte)
  /-- `SBC $zz` (R91, R74). -/
  | sbcZp (d8 : Byte)
  /-- `SBC $zz,X` (R91, R75). -/
  | sbcZpx (d8 : Byte)
  /-- `SBC $hhll` (R91, R77). -/
  | sbcAbs (a16 : Addr)
  /-- `SBC $hhll,X` (R91, R78). -/
  | sbcAbx (a16 : Addr)
  /-- `SBC $hhll,Y` (R91, R79). -/
  | sbcAby (a16 : Addr)
  /-- `SBC ($zz,X)` (R91, R80). -/
  | sbcIzx (d8 : Byte)
  /-- `SBC ($zz),Y` (R91, R81). -/
  | sbcIzy (d8 : Byte)
  /-- `AND #$nn` (R92, R73). -/
  | andImm (d8 : Byte)
  /-- `AND $zz` (R92, R74). -/
  | andZp (d8 : Byte)
  /-- `AND $zz,X` (R92, R75). -/
  | andZpx (d8 : Byte)
  /-- `AND $hhll` (R92, R77). -/
  | andAbs (a16 : Addr)
  /-- `AND $hhll,X` (R92, R78). -/
  | andAbx (a16 : Addr)
  /-- `AND $hhll,Y` (R92, R79). -/
  | andAby (a16 : Addr)
  /-- `AND ($zz,X)` (R92, R80). -/
  | andIzx (d8 : Byte)
  /-- `AND ($zz),Y` (R92, R81). -/
  | andIzy (d8 : Byte)
  /-- `ORA #$nn` (R93, R73). -/
  | oraImm (d8 : Byte)
  /-- `ORA $zz` (R93, R74). -/
  | oraZp (d8 : Byte)
  /-- `ORA $zz,X` (R93, R75). -/
  | oraZpx (d8 : Byte)
  /-- `ORA $hhll` (R93, R77). -/
  | oraAbs (a16 : Addr)
  /-- `ORA $hhll,X` (R93, R78). -/
  | oraAbx (a16 : Addr)
  /-- `ORA $hhll,Y` (R93, R79). -/
  | oraAby (a16 : Addr)
  /-- `ORA ($zz,X)` (R93, R80). -/
  | oraIzx (d8 : Byte)
  /-- `ORA ($zz),Y` (R93, R81). -/
  | oraIzy (d8 : Byte)
  /-- `EOR #$nn` (R94, R73). -/
  | eorImm (d8 : Byte)
  /-- `EOR $zz` (R94, R74). -/
  | eorZp (d8 : Byte)
  /-- `EOR $zz,X` (R94, R75). -/
  | eorZpx (d8 : Byte)
  /-- `EOR $hhll` (R94, R77). -/
  | eorAbs (a16 : Addr)
  /-- `EOR $hhll,X` (R94, R78). -/
  | eorAbx (a16 : Addr)
  /-- `EOR $hhll,Y` (R94, R79). -/
  | eorAby (a16 : Addr)
  /-- `EOR ($zz,X)` (R94, R80). -/
  | eorIzx (d8 : Byte)
  /-- `EOR ($zz),Y` (R94, R81). -/
  | eorIzy (d8 : Byte)
  /-- `CMP #$nn` (R95, R73). -/
  | cmpImm (d8 : Byte)
  /-- `CMP $zz` (R95, R74). -/
  | cmpZp (d8 : Byte)
  /-- `CMP $zz,X` (R95, R75). -/
  | cmpZpx (d8 : Byte)
  /-- `CMP $hhll` (R95, R77). -/
  | cmpAbs (a16 : Addr)
  /-- `CMP $hhll,X` (R95, R78). -/
  | cmpAbx (a16 : Addr)
  /-- `CMP $hhll,Y` (R95, R79). -/
  | cmpAby (a16 : Addr)
  /-- `CMP ($zz,X)` (R95, R80). -/
  | cmpIzx (d8 : Byte)
  /-- `CMP ($zz),Y` (R95, R81). -/
  | cmpIzy (d8 : Byte)
  /-- `CPX #$nn` (R96, R73). -/
  | cpxImm (d8 : Byte)
  /-- `CPX $zz` (R96, R74). -/
  | cpxZp (d8 : Byte)
  /-- `CPX $hhll` (R96, R77). -/
  | cpxAbs (a16 : Addr)
  /-- `CPY #$nn` (R97, R73). -/
  | cpyImm (d8 : Byte)
  /-- `CPY $zz` (R97, R74). -/
  | cpyZp (d8 : Byte)
  /-- `CPY $hhll` (R97, R77). -/
  | cpyAbs (a16 : Addr)
  /-- `BIT $zz` (R98, R74). -/
  | bitZp (d8 : Byte)
  /-- `BIT $hhll` (R98, R77). -/
  | bitAbs (a16 : Addr)
  /-- `ASL A` (R110, R72). -/
  | aslAcc
  /-- `ASL $zz` (R110, R74). -/
  | aslZp (d8 : Byte)
  /-- `ASL $zz,X` (R110, R75). -/
  | aslZpx (d8 : Byte)
  /-- `ASL $hhll` (R110, R77). -/
  | aslAbs (a16 : Addr)
  /-- `ASL $hhll,X` (R110, R78). -/
  | aslAbx (a16 : Addr)
  /-- `LSR A` (R111, R72). -/
  | lsrAcc
  /-- `LSR $zz` (R111, R74). -/
  | lsrZp (d8 : Byte)
  /-- `LSR $zz,X` (R111, R75). -/
  | lsrZpx (d8 : Byte)
  /-- `LSR $hhll` (R111, R77). -/
  | lsrAbs (a16 : Addr)
  /-- `LSR $hhll,X` (R111, R78). -/
  | lsrAbx (a16 : Addr)
  /-- `ROL A` (R112, R72). -/
  | rolAcc
  /-- `ROL $zz` (R112, R74). -/
  | rolZp (d8 : Byte)
  /-- `ROL $zz,X` (R112, R75). -/
  | rolZpx (d8 : Byte)
  /-- `ROL $hhll` (R112, R77). -/
  | rolAbs (a16 : Addr)
  /-- `ROL $hhll,X` (R112, R78). -/
  | rolAbx (a16 : Addr)
  /-- `ROR A` (R113, R72). -/
  | rorAcc
  /-- `ROR $zz` (R113, R74). -/
  | rorZp (d8 : Byte)
  /-- `ROR $zz,X` (R113, R75). -/
  | rorZpx (d8 : Byte)
  /-- `ROR $hhll` (R113, R77). -/
  | rorAbs (a16 : Addr)
  /-- `ROR $hhll,X` (R113, R78). -/
  | rorAbx (a16 : Addr)
  /-- `INC $zz` (R114, R74). -/
  | incZp (d8 : Byte)
  /-- `INC $zz,X` (R114, R75). -/
  | incZpx (d8 : Byte)
  /-- `INC $hhll` (R114, R77). -/
  | incAbs (a16 : Addr)
  /-- `INC $hhll,X` (R114, R78). -/
  | incAbx (a16 : Addr)
  /-- `DEC $zz` (R115, R74). -/
  | decZp (d8 : Byte)
  /-- `DEC $zz,X` (R115, R75). -/
  | decZpx (d8 : Byte)
  /-- `DEC $hhll` (R115, R77). -/
  | decAbs (a16 : Addr)
  /-- `DEC $hhll,X` (R115, R78). -/
  | decAbx (a16 : Addr)
  /-- `INX` (R116, R71). -/
  | inx
  /-- `INY` (R117, R71). -/
  | iny
  /-- `DEX` (R118, R71). -/
  | dex
  /-- `DEY` (R119, R71). -/
  | dey
  /-- `LDA #$nn` (R130, R73). -/
  | ldaImm (d8 : Byte)
  /-- `LDA $zz` (R130, R74). -/
  | ldaZp (d8 : Byte)
  /-- `LDA $zz,X` (R130, R75). -/
  | ldaZpx (d8 : Byte)
  /-- `LDA $hhll` (R130, R77). -/
  | ldaAbs (a16 : Addr)
  /-- `LDA $hhll,X` (R130, R78). -/
  | ldaAbx (a16 : Addr)
  /-- `LDA $hhll,Y` (R130, R79). -/
  | ldaAby (a16 : Addr)
  /-- `LDA ($zz,X)` (R130, R80). -/
  | ldaIzx (d8 : Byte)
  /-- `LDA ($zz),Y` (R130, R81). -/
  | ldaIzy (d8 : Byte)
  /-- `LDX #$nn` (R131, R73). -/
  | ldxImm (d8 : Byte)
  /-- `LDX $zz` (R131, R74). -/
  | ldxZp (d8 : Byte)
  /-- `LDX $zz,Y` (R131, R76). -/
  | ldxZpy (d8 : Byte)
  /-- `LDX $hhll` (R131, R77). -/
  | ldxAbs (a16 : Addr)
  /-- `LDX $hhll,Y` (R131, R79). -/
  | ldxAby (a16 : Addr)
  /-- `LDY #$nn` (R132, R73). -/
  | ldyImm (d8 : Byte)
  /-- `LDY $zz` (R132, R74). -/
  | ldyZp (d8 : Byte)
  /-- `LDY $zz,X` (R132, R75). -/
  | ldyZpx (d8 : Byte)
  /-- `LDY $hhll` (R132, R77). -/
  | ldyAbs (a16 : Addr)
  /-- `LDY $hhll,X` (R132, R78). -/
  | ldyAbx (a16 : Addr)
  /-- `STA $zz` (R133, R74). -/
  | staZp (d8 : Byte)
  /-- `STA $zz,X` (R133, R75). -/
  | staZpx (d8 : Byte)
  /-- `STA $hhll` (R133, R77). -/
  | staAbs (a16 : Addr)
  /-- `STA $hhll,X` (R133, R78). -/
  | staAbx (a16 : Addr)
  /-- `STA $hhll,Y` (R133, R79). -/
  | staAby (a16 : Addr)
  /-- `STA ($zz,X)` (R133, R80). -/
  | staIzx (d8 : Byte)
  /-- `STA ($zz),Y` (R133, R81). -/
  | staIzy (d8 : Byte)
  /-- `STX $zz` (R134, R74). -/
  | stxZp (d8 : Byte)
  /-- `STX $zz,Y` (R134, R76). -/
  | stxZpy (d8 : Byte)
  /-- `STX $hhll` (R134, R77). -/
  | stxAbs (a16 : Addr)
  /-- `STY $zz` (R135, R74). -/
  | styZp (d8 : Byte)
  /-- `STY $zz,X` (R135, R75). -/
  | styZpx (d8 : Byte)
  /-- `STY $hhll` (R135, R77). -/
  | styAbs (a16 : Addr)
  /-- `TAX` (R136, R71). -/
  | tax
  /-- `TAY` (R137, R71). -/
  | tay
  /-- `TXA` (R138, R71). -/
  | txa
  /-- `TYA` (R139, R71). -/
  | tya
  /-- `TSX` (R140, R71). -/
  | tsx
  /-- `TXS` (R141, R71). -/
  | txs
  /-- `BCC label` (R151, R82). -/
  | bcc (d8 : Byte)
  /-- `BCS label` (R152, R82). -/
  | bcs (d8 : Byte)
  /-- `BEQ label` (R153, R82). -/
  | beq (d8 : Byte)
  /-- `BNE label` (R154, R82). -/
  | bne (d8 : Byte)
  /-- `BMI label` (R155, R82). -/
  | bmi (d8 : Byte)
  /-- `BPL label` (R156, R82). -/
  | bpl (d8 : Byte)
  /-- `BVC label` (R157, R82). -/
  | bvc (d8 : Byte)
  /-- `BVS label` (R158, R82). -/
  | bvs (d8 : Byte)
  /-- `JMP $hhll` (R159, R77). -/
  | jmpAbs (a16 : Addr)
  /-- `JMP ($hhll)` (R160, R83). -/
  | jmpInd (a16 : Addr)
  /-- `JSR $hhll` (R161, R77). -/
  | jsr (a16 : Addr)
  /-- `RTS` (R162, R71). -/
  | rts
  /-- `BRK` (R163, R71). -/
  | brk
  /-- `RTI` (R164, R71). -/
  | rti
  /-- `PHA` (R170, R71). -/
  | pha
  /-- `PLA` (R171, R71). -/
  | pla
  /-- `PHP` (R172, R71). -/
  | php
  /-- `PLP` (R173, R71). -/
  | plp
  /-- `CLC` (R174, R71). -/
  | clc
  /-- `SEC` (R175, R71). -/
  | sec
  /-- `CLI` (R176, R71). -/
  | cli
  /-- `SEI` (R177, R71). -/
  | sei
  /-- `CLV` (R178, R71). -/
  | clv
  /-- `CLD` (R179, R71). -/
  | cld
  /-- `SED` (R180, R71). -/
  | sed
  /-- `NOP` (R181, R71). -/
  | nop
deriving DecidableEq, Repr

/-- The mnemonic of an instruction (R54, first column). -/
def Instr.mnemonic : Instr → Mnemonic
  | .adcImm _ | .adcZp _ | .adcZpx _ | .adcAbs _ | .adcAbx _ | .adcAby _ | .adcIzx _ | .adcIzy _ => .adc
  | .sbcImm _ | .sbcZp _ | .sbcZpx _ | .sbcAbs _ | .sbcAbx _ | .sbcAby _ | .sbcIzx _ | .sbcIzy _ => .sbc
  | .andImm _ | .andZp _ | .andZpx _ | .andAbs _ | .andAbx _ | .andAby _ | .andIzx _ | .andIzy _ => .and
  | .oraImm _ | .oraZp _ | .oraZpx _ | .oraAbs _ | .oraAbx _ | .oraAby _ | .oraIzx _ | .oraIzy _ => .ora
  | .eorImm _ | .eorZp _ | .eorZpx _ | .eorAbs _ | .eorAbx _ | .eorAby _ | .eorIzx _ | .eorIzy _ => .eor
  | .cmpImm _ | .cmpZp _ | .cmpZpx _ | .cmpAbs _ | .cmpAbx _ | .cmpAby _ | .cmpIzx _ | .cmpIzy _ => .cmp
  | .cpxImm _ | .cpxZp _ | .cpxAbs _ => .cpx
  | .cpyImm _ | .cpyZp _ | .cpyAbs _ => .cpy
  | .bitZp _ | .bitAbs _ => .bit
  | .aslAcc | .aslZp _ | .aslZpx _ | .aslAbs _ | .aslAbx _ => .asl
  | .lsrAcc | .lsrZp _ | .lsrZpx _ | .lsrAbs _ | .lsrAbx _ => .lsr
  | .rolAcc | .rolZp _ | .rolZpx _ | .rolAbs _ | .rolAbx _ => .rol
  | .rorAcc | .rorZp _ | .rorZpx _ | .rorAbs _ | .rorAbx _ => .ror
  | .incZp _ | .incZpx _ | .incAbs _ | .incAbx _ => .inc
  | .decZp _ | .decZpx _ | .decAbs _ | .decAbx _ => .dec
  | .inx => .inx
  | .iny => .iny
  | .dex => .dex
  | .dey => .dey
  | .ldaImm _ | .ldaZp _ | .ldaZpx _ | .ldaAbs _ | .ldaAbx _ | .ldaAby _ | .ldaIzx _ | .ldaIzy _ => .lda
  | .ldxImm _ | .ldxZp _ | .ldxZpy _ | .ldxAbs _ | .ldxAby _ => .ldx
  | .ldyImm _ | .ldyZp _ | .ldyZpx _ | .ldyAbs _ | .ldyAbx _ => .ldy
  | .staZp _ | .staZpx _ | .staAbs _ | .staAbx _ | .staAby _ | .staIzx _ | .staIzy _ => .sta
  | .stxZp _ | .stxZpy _ | .stxAbs _ => .stx
  | .styZp _ | .styZpx _ | .styAbs _ => .sty
  | .tax => .tax
  | .tay => .tay
  | .txa => .txa
  | .tya => .tya
  | .tsx => .tsx
  | .txs => .txs
  | .bcc _ => .bcc
  | .bcs _ => .bcs
  | .beq _ => .beq
  | .bne _ => .bne
  | .bmi _ => .bmi
  | .bpl _ => .bpl
  | .bvc _ => .bvc
  | .bvs _ => .bvs
  | .jmpAbs _ | .jmpInd _ => .jmp
  | .jsr _ => .jsr
  | .rts => .rts
  | .brk => .brk
  | .rti => .rti
  | .pha => .pha
  | .pla => .pla
  | .php => .php
  | .plp => .plp
  | .clc => .clc
  | .sec => .sec
  | .cli => .cli
  | .sei => .sei
  | .clv => .clv
  | .cld => .cld
  | .sed => .sed
  | .nop => .nop

/-- The addressing mode of an instruction, with its operand (R54, the column of the cell). -/
def Instr.addressing : Instr → Addressing
  | .adcImm d8 => .imm d8
  | .adcZp d8 => .zp d8
  | .adcZpx d8 => .zpx d8
  | .adcAbs a16 => .abs a16
  | .adcAbx a16 => .abx a16
  | .adcAby a16 => .aby a16
  | .adcIzx d8 => .izx d8
  | .adcIzy d8 => .izy d8
  | .sbcImm d8 => .imm d8
  | .sbcZp d8 => .zp d8
  | .sbcZpx d8 => .zpx d8
  | .sbcAbs a16 => .abs a16
  | .sbcAbx a16 => .abx a16
  | .sbcAby a16 => .aby a16
  | .sbcIzx d8 => .izx d8
  | .sbcIzy d8 => .izy d8
  | .andImm d8 => .imm d8
  | .andZp d8 => .zp d8
  | .andZpx d8 => .zpx d8
  | .andAbs a16 => .abs a16
  | .andAbx a16 => .abx a16
  | .andAby a16 => .aby a16
  | .andIzx d8 => .izx d8
  | .andIzy d8 => .izy d8
  | .oraImm d8 => .imm d8
  | .oraZp d8 => .zp d8
  | .oraZpx d8 => .zpx d8
  | .oraAbs a16 => .abs a16
  | .oraAbx a16 => .abx a16
  | .oraAby a16 => .aby a16
  | .oraIzx d8 => .izx d8
  | .oraIzy d8 => .izy d8
  | .eorImm d8 => .imm d8
  | .eorZp d8 => .zp d8
  | .eorZpx d8 => .zpx d8
  | .eorAbs a16 => .abs a16
  | .eorAbx a16 => .abx a16
  | .eorAby a16 => .aby a16
  | .eorIzx d8 => .izx d8
  | .eorIzy d8 => .izy d8
  | .cmpImm d8 => .imm d8
  | .cmpZp d8 => .zp d8
  | .cmpZpx d8 => .zpx d8
  | .cmpAbs a16 => .abs a16
  | .cmpAbx a16 => .abx a16
  | .cmpAby a16 => .aby a16
  | .cmpIzx d8 => .izx d8
  | .cmpIzy d8 => .izy d8
  | .cpxImm d8 => .imm d8
  | .cpxZp d8 => .zp d8
  | .cpxAbs a16 => .abs a16
  | .cpyImm d8 => .imm d8
  | .cpyZp d8 => .zp d8
  | .cpyAbs a16 => .abs a16
  | .bitZp d8 => .zp d8
  | .bitAbs a16 => .abs a16
  | .aslAcc => .acc
  | .aslZp d8 => .zp d8
  | .aslZpx d8 => .zpx d8
  | .aslAbs a16 => .abs a16
  | .aslAbx a16 => .abx a16
  | .lsrAcc => .acc
  | .lsrZp d8 => .zp d8
  | .lsrZpx d8 => .zpx d8
  | .lsrAbs a16 => .abs a16
  | .lsrAbx a16 => .abx a16
  | .rolAcc => .acc
  | .rolZp d8 => .zp d8
  | .rolZpx d8 => .zpx d8
  | .rolAbs a16 => .abs a16
  | .rolAbx a16 => .abx a16
  | .rorAcc => .acc
  | .rorZp d8 => .zp d8
  | .rorZpx d8 => .zpx d8
  | .rorAbs a16 => .abs a16
  | .rorAbx a16 => .abx a16
  | .incZp d8 => .zp d8
  | .incZpx d8 => .zpx d8
  | .incAbs a16 => .abs a16
  | .incAbx a16 => .abx a16
  | .decZp d8 => .zp d8
  | .decZpx d8 => .zpx d8
  | .decAbs a16 => .abs a16
  | .decAbx a16 => .abx a16
  | .inx => .imp
  | .iny => .imp
  | .dex => .imp
  | .dey => .imp
  | .ldaImm d8 => .imm d8
  | .ldaZp d8 => .zp d8
  | .ldaZpx d8 => .zpx d8
  | .ldaAbs a16 => .abs a16
  | .ldaAbx a16 => .abx a16
  | .ldaAby a16 => .aby a16
  | .ldaIzx d8 => .izx d8
  | .ldaIzy d8 => .izy d8
  | .ldxImm d8 => .imm d8
  | .ldxZp d8 => .zp d8
  | .ldxZpy d8 => .zpy d8
  | .ldxAbs a16 => .abs a16
  | .ldxAby a16 => .aby a16
  | .ldyImm d8 => .imm d8
  | .ldyZp d8 => .zp d8
  | .ldyZpx d8 => .zpx d8
  | .ldyAbs a16 => .abs a16
  | .ldyAbx a16 => .abx a16
  | .staZp d8 => .zp d8
  | .staZpx d8 => .zpx d8
  | .staAbs a16 => .abs a16
  | .staAbx a16 => .abx a16
  | .staAby a16 => .aby a16
  | .staIzx d8 => .izx d8
  | .staIzy d8 => .izy d8
  | .stxZp d8 => .zp d8
  | .stxZpy d8 => .zpy d8
  | .stxAbs a16 => .abs a16
  | .styZp d8 => .zp d8
  | .styZpx d8 => .zpx d8
  | .styAbs a16 => .abs a16
  | .tax => .imp
  | .tay => .imp
  | .txa => .imp
  | .tya => .imp
  | .tsx => .imp
  | .txs => .imp
  | .bcc d8 => .rel d8
  | .bcs d8 => .rel d8
  | .beq d8 => .rel d8
  | .bne d8 => .rel d8
  | .bmi d8 => .rel d8
  | .bpl d8 => .rel d8
  | .bvc d8 => .rel d8
  | .bvs d8 => .rel d8
  | .jmpAbs a16 => .abs a16
  | .jmpInd a16 => .ind a16
  | .jsr a16 => .abs a16
  | .rts => .imp
  | .brk => .imp
  | .rti => .imp
  | .pha => .imp
  | .pla => .imp
  | .php => .imp
  | .plp => .imp
  | .clc => .imp
  | .sec => .imp
  | .cli => .imp
  | .sei => .imp
  | .clv => .imp
  | .cld => .imp
  | .sed => .imp
  | .nop => .imp

/-- The length of an instruction in bytes (R57). -/
def Instr.length (i : Instr) : Nat := i.addressing.mode.length

end Sys2Proof
end

