-- ==== Sys2Proof/Machine/Operands.lean ====
section
/-! DEFINITION. The addressing-mode resolvers (spec/40_addressing_modes.md R71 to R83). Each is a function of the operand
bytes and of the state after the instruction's bytes have been fetched (log entry 5). No resolver writes anything. -/

namespace Sys2Proof.Machine

/-- ZP (R74). -/
def eaZp (d8 : Byte) : Addr := zext16 d8

/-- ZPX (R75): the sum is truncated to 8 bits, so the address stays in page zero. -/
def eaZpx (s : State) (d8 : Byte) : Addr := zext16 (d8 + s.x)

/-- ZPY (R76). -/
def eaZpy (s : State) (d8 : Byte) : Addr := zext16 (d8 + s.y)

/-- ABS (R77). -/
def eaAbs (a16 : Addr) : Addr := a16

/-- ABX (R78): a 16-bit sum; a page crossing is not special (R85). -/
def eaAbx (s : State) (a16 : Addr) : Addr := a16 + zext16 s.x

/-- ABY (R79). -/
def eaAby (s : State) (a16 : Addr) : Addr := a16 + zext16 s.y

/-- The 16-bit pointer at the zero-page address `p`; its high byte comes from `p + 1` wrapped in page zero (R80, R81). -/
def zeroPagePointer (s : State) (p : Byte) : Addr := s.read16 (zext16 p) (zext16 (p + 1))

/-- IZX (R80): `X` is added to the pointer's address, not to the result. -/
def eaIzx (s : State) (d8 : Byte) : Addr := zeroPagePointer s (d8 + s.x)

/-- IZY (R81): `Y` is added to the 16-bit base. -/
def eaIzy (s : State) (d8 : Byte) : Addr := zeroPagePointer s d8 + zext16 s.y

/-- IND (R83): the target of JMP indirect; the pointer's low byte wraps within its page. -/
def indirectTarget (s : State) (a16 : Addr) : Addr := s.read16 a16 (joinBytes (highByte a16) (lowByte a16 + 1))

/-- REL (R82, R150): the target of a taken branch, from `pc` after the offset byte; the offset is sign-extended. -/
def branchTarget (s : State) (d8 : Byte) : Addr := s.pc + sext16 d8

/-- The effective address of an operand in memory, where the mode has one (R70, section 3 of the file). -/
def effectiveAddress (am : Addressing) (s : State) : Option Addr :=
  match am with
  | .imp | .acc | .imm _ | .rel _ | .ind _ => none
  | .zp d8 => some (eaZp d8)
  | .zpx d8 => some (eaZpx s d8)
  | .zpy d8 => some (eaZpy s d8)
  | .abs a16 => some (eaAbs a16)
  | .abx a16 => some (eaAbx s a16)
  | .aby a16 => some (eaAby s a16)
  | .izx d8 => some (eaIzx s d8)
  | .izy d8 => some (eaIzy s d8)

/-- The operand byte `m` of the read, read-modify-write and accumulator classes (R70, R72, R73). -/
def operandByte (am : Addressing) (s : State) : Option Byte :=
  match am with
  | .acc => some s.a
  | .imm d8 => some d8
  | _ => (effectiveAddress am s).map s.memRead

end Sys2Proof.Machine
end

