-- ==== Sys2Proof/Machine/Alu.lean ====
section
/-! DEFINITION. The arithmetic, logic, compare and bit-test instructions (spec/41_alu.md): one meaning per row of
the opcode table. In every meaning `pc` already stands at the next instruction (log entry 5). -/

namespace Sys2Proof.Machine

/-- A compare of the register value `r` with the operand (R95 to R97): flags only. -/
def State.compareWith (s : State) (r m : Byte) : State := { s with flags := aluCompare r m s.flags }

/-- BIT with the operand (R98): flags only. -/
def State.bitTest (s : State) (m : Byte) : State := { s with flags := aluBit s.a m s.flags }

/-- `ADC #$nn`, opcode 69 (R90, R73). -/
def execAdcImm (d8 : Byte) (s : State) : Result := .next (s.accumulate aluAdc d8)

/-- `ADC $zz`, opcode 65 (R90, R74). -/
def execAdcZp (d8 : Byte) (s : State) : Result := .next (s.accumulate aluAdc (s.memRead (eaZp d8)))

/-- `ADC $zz,X`, opcode 75 (R90, R75). -/
def execAdcZpx (d8 : Byte) (s : State) : Result := .next (s.accumulate aluAdc (s.memRead (eaZpx s d8)))

/-- `ADC $hhll`, opcode 6D (R90, R77). -/
def execAdcAbs (a16 : Addr) (s : State) : Result := .next (s.accumulate aluAdc (s.memRead (eaAbs a16)))

/-- `ADC $hhll,X`, opcode 7D (R90, R78). -/
def execAdcAbx (a16 : Addr) (s : State) : Result := .next (s.accumulate aluAdc (s.memRead (eaAbx s a16)))

/-- `ADC $hhll,Y`, opcode 79 (R90, R79). -/
def execAdcAby (a16 : Addr) (s : State) : Result := .next (s.accumulate aluAdc (s.memRead (eaAby s a16)))

/-- `ADC ($zz,X)`, opcode 61 (R90, R80). -/
def execAdcIzx (d8 : Byte) (s : State) : Result := .next (s.accumulate aluAdc (s.memRead (eaIzx s d8)))

/-- `ADC ($zz),Y`, opcode 71 (R90, R81). -/
def execAdcIzy (d8 : Byte) (s : State) : Result := .next (s.accumulate aluAdc (s.memRead (eaIzy s d8)))

/-- `SBC #$nn`, opcode E9 (R91, R73). -/
def execSbcImm (d8 : Byte) (s : State) : Result := .next (s.accumulate aluSbc d8)

/-- `SBC $zz`, opcode E5 (R91, R74). -/
def execSbcZp (d8 : Byte) (s : State) : Result := .next (s.accumulate aluSbc (s.memRead (eaZp d8)))

/-- `SBC $zz,X`, opcode F5 (R91, R75). -/
def execSbcZpx (d8 : Byte) (s : State) : Result := .next (s.accumulate aluSbc (s.memRead (eaZpx s d8)))

/-- `SBC $hhll`, opcode ED (R91, R77). -/
def execSbcAbs (a16 : Addr) (s : State) : Result := .next (s.accumulate aluSbc (s.memRead (eaAbs a16)))

/-- `SBC $hhll,X`, opcode FD (R91, R78). -/
def execSbcAbx (a16 : Addr) (s : State) : Result := .next (s.accumulate aluSbc (s.memRead (eaAbx s a16)))

/-- `SBC $hhll,Y`, opcode F9 (R91, R79). -/
def execSbcAby (a16 : Addr) (s : State) : Result := .next (s.accumulate aluSbc (s.memRead (eaAby s a16)))

/-- `SBC ($zz,X)`, opcode E1 (R91, R80). -/
def execSbcIzx (d8 : Byte) (s : State) : Result := .next (s.accumulate aluSbc (s.memRead (eaIzx s d8)))

/-- `SBC ($zz),Y`, opcode F1 (R91, R81). -/
def execSbcIzy (d8 : Byte) (s : State) : Result := .next (s.accumulate aluSbc (s.memRead (eaIzy s d8)))

/-- `AND #$nn`, opcode 29 (R92, R73). -/
def execAndImm (d8 : Byte) (s : State) : Result := .next (s.accumulate aluAnd d8)

/-- `AND $zz`, opcode 25 (R92, R74). -/
def execAndZp (d8 : Byte) (s : State) : Result := .next (s.accumulate aluAnd (s.memRead (eaZp d8)))

/-- `AND $zz,X`, opcode 35 (R92, R75). -/
def execAndZpx (d8 : Byte) (s : State) : Result := .next (s.accumulate aluAnd (s.memRead (eaZpx s d8)))

/-- `AND $hhll`, opcode 2D (R92, R77). -/
def execAndAbs (a16 : Addr) (s : State) : Result := .next (s.accumulate aluAnd (s.memRead (eaAbs a16)))

/-- `AND $hhll,X`, opcode 3D (R92, R78). -/
def execAndAbx (a16 : Addr) (s : State) : Result := .next (s.accumulate aluAnd (s.memRead (eaAbx s a16)))

/-- `AND $hhll,Y`, opcode 39 (R92, R79). -/
def execAndAby (a16 : Addr) (s : State) : Result := .next (s.accumulate aluAnd (s.memRead (eaAby s a16)))

/-- `AND ($zz,X)`, opcode 21 (R92, R80). -/
def execAndIzx (d8 : Byte) (s : State) : Result := .next (s.accumulate aluAnd (s.memRead (eaIzx s d8)))

/-- `AND ($zz),Y`, opcode 31 (R92, R81). -/
def execAndIzy (d8 : Byte) (s : State) : Result := .next (s.accumulate aluAnd (s.memRead (eaIzy s d8)))

/-- `ORA #$nn`, opcode 09 (R93, R73). -/
def execOraImm (d8 : Byte) (s : State) : Result := .next (s.accumulate aluOra d8)

/-- `ORA $zz`, opcode 05 (R93, R74). -/
def execOraZp (d8 : Byte) (s : State) : Result := .next (s.accumulate aluOra (s.memRead (eaZp d8)))

/-- `ORA $zz,X`, opcode 15 (R93, R75). -/
def execOraZpx (d8 : Byte) (s : State) : Result := .next (s.accumulate aluOra (s.memRead (eaZpx s d8)))

/-- `ORA $hhll`, opcode 0D (R93, R77). -/
def execOraAbs (a16 : Addr) (s : State) : Result := .next (s.accumulate aluOra (s.memRead (eaAbs a16)))

/-- `ORA $hhll,X`, opcode 1D (R93, R78). -/
def execOraAbx (a16 : Addr) (s : State) : Result := .next (s.accumulate aluOra (s.memRead (eaAbx s a16)))

/-- `ORA $hhll,Y`, opcode 19 (R93, R79). -/
def execOraAby (a16 : Addr) (s : State) : Result := .next (s.accumulate aluOra (s.memRead (eaAby s a16)))

/-- `ORA ($zz,X)`, opcode 01 (R93, R80). -/
def execOraIzx (d8 : Byte) (s : State) : Result := .next (s.accumulate aluOra (s.memRead (eaIzx s d8)))

/-- `ORA ($zz),Y`, opcode 11 (R93, R81). -/
def execOraIzy (d8 : Byte) (s : State) : Result := .next (s.accumulate aluOra (s.memRead (eaIzy s d8)))

/-- `EOR #$nn`, opcode 49 (R94, R73). -/
def execEorImm (d8 : Byte) (s : State) : Result := .next (s.accumulate aluEor d8)

/-- `EOR $zz`, opcode 45 (R94, R74). -/
def execEorZp (d8 : Byte) (s : State) : Result := .next (s.accumulate aluEor (s.memRead (eaZp d8)))

/-- `EOR $zz,X`, opcode 55 (R94, R75). -/
def execEorZpx (d8 : Byte) (s : State) : Result := .next (s.accumulate aluEor (s.memRead (eaZpx s d8)))

/-- `EOR $hhll`, opcode 4D (R94, R77). -/
def execEorAbs (a16 : Addr) (s : State) : Result := .next (s.accumulate aluEor (s.memRead (eaAbs a16)))

/-- `EOR $hhll,X`, opcode 5D (R94, R78). -/
def execEorAbx (a16 : Addr) (s : State) : Result := .next (s.accumulate aluEor (s.memRead (eaAbx s a16)))

/-- `EOR $hhll,Y`, opcode 59 (R94, R79). -/
def execEorAby (a16 : Addr) (s : State) : Result := .next (s.accumulate aluEor (s.memRead (eaAby s a16)))

/-- `EOR ($zz,X)`, opcode 41 (R94, R80). -/
def execEorIzx (d8 : Byte) (s : State) : Result := .next (s.accumulate aluEor (s.memRead (eaIzx s d8)))

/-- `EOR ($zz),Y`, opcode 51 (R94, R81). -/
def execEorIzy (d8 : Byte) (s : State) : Result := .next (s.accumulate aluEor (s.memRead (eaIzy s d8)))

/-- `CMP #$nn`, opcode C9 (R95, R73). -/
def execCmpImm (d8 : Byte) (s : State) : Result := .next (s.compareWith s.a d8)

/-- `CMP $zz`, opcode C5 (R95, R74). -/
def execCmpZp (d8 : Byte) (s : State) : Result := .next (s.compareWith s.a (s.memRead (eaZp d8)))

/-- `CMP $zz,X`, opcode D5 (R95, R75). -/
def execCmpZpx (d8 : Byte) (s : State) : Result := .next (s.compareWith s.a (s.memRead (eaZpx s d8)))

/-- `CMP $hhll`, opcode CD (R95, R77). -/
def execCmpAbs (a16 : Addr) (s : State) : Result := .next (s.compareWith s.a (s.memRead (eaAbs a16)))

/-- `CMP $hhll,X`, opcode DD (R95, R78). -/
def execCmpAbx (a16 : Addr) (s : State) : Result := .next (s.compareWith s.a (s.memRead (eaAbx s a16)))

/-- `CMP $hhll,Y`, opcode D9 (R95, R79). -/
def execCmpAby (a16 : Addr) (s : State) : Result := .next (s.compareWith s.a (s.memRead (eaAby s a16)))

/-- `CMP ($zz,X)`, opcode C1 (R95, R80). -/
def execCmpIzx (d8 : Byte) (s : State) : Result := .next (s.compareWith s.a (s.memRead (eaIzx s d8)))

/-- `CMP ($zz),Y`, opcode D1 (R95, R81). -/
def execCmpIzy (d8 : Byte) (s : State) : Result := .next (s.compareWith s.a (s.memRead (eaIzy s d8)))

/-- `CPX #$nn`, opcode E0 (R96, R73). -/
def execCpxImm (d8 : Byte) (s : State) : Result := .next (s.compareWith s.x d8)

/-- `CPX $zz`, opcode E4 (R96, R74). -/
def execCpxZp (d8 : Byte) (s : State) : Result := .next (s.compareWith s.x (s.memRead (eaZp d8)))

/-- `CPX $hhll`, opcode EC (R96, R77). -/
def execCpxAbs (a16 : Addr) (s : State) : Result := .next (s.compareWith s.x (s.memRead (eaAbs a16)))

/-- `CPY #$nn`, opcode C0 (R97, R73). -/
def execCpyImm (d8 : Byte) (s : State) : Result := .next (s.compareWith s.y d8)

/-- `CPY $zz`, opcode C4 (R97, R74). -/
def execCpyZp (d8 : Byte) (s : State) : Result := .next (s.compareWith s.y (s.memRead (eaZp d8)))

/-- `CPY $hhll`, opcode CC (R97, R77). -/
def execCpyAbs (a16 : Addr) (s : State) : Result := .next (s.compareWith s.y (s.memRead (eaAbs a16)))

/-- `BIT $zz`, opcode 24 (R98, R74). -/
def execBitZp (d8 : Byte) (s : State) : Result := .next (s.bitTest (s.memRead (eaZp d8)))

/-- `BIT $hhll`, opcode 2C (R98, R77). -/
def execBitAbs (a16 : Addr) (s : State) : Result := .next (s.bitTest (s.memRead (eaAbs a16)))

end Sys2Proof.Machine
end

