-- ==== Sys2Proof/Machine/ControlFlow.lean ====
section
/-! DEFINITION. The branch, jump, call, return, break and return-from-interrupt instructions (spec/44_control_flow.md): one meaning per row of
the opcode table. In every meaning `pc` already stands at the next instruction (log entry 5). -/

namespace Sys2Proof.Machine

/-- The common rule of the eight branches (R150): the offset byte has been fetched whether or not the branch is taken. -/
def State.branchIf (s : State) (condition : Bool) (d8 : Byte) : State :=
  if condition then { s with pc := branchTarget s d8 } else s

/-- `BCC label`, opcode 90 (R151, R82). -/
def execBcc (d8 : Byte) (s : State) : Result := .next (s.branchIf (!s.flags.c) d8)

/-- `BCS label`, opcode B0 (R152, R82). -/
def execBcs (d8 : Byte) (s : State) : Result := .next (s.branchIf s.flags.c d8)

/-- `BEQ label`, opcode F0 (R153, R82). -/
def execBeq (d8 : Byte) (s : State) : Result := .next (s.branchIf s.flags.z d8)

/-- `BNE label`, opcode D0 (R154, R82). -/
def execBne (d8 : Byte) (s : State) : Result := .next (s.branchIf (!s.flags.z) d8)

/-- `BMI label`, opcode 30 (R155, R82). -/
def execBmi (d8 : Byte) (s : State) : Result := .next (s.branchIf s.flags.n d8)

/-- `BPL label`, opcode 10 (R156, R82). -/
def execBpl (d8 : Byte) (s : State) : Result := .next (s.branchIf (!s.flags.n) d8)

/-- `BVC label`, opcode 50 (R157, R82). -/
def execBvc (d8 : Byte) (s : State) : Result := .next (s.branchIf (!s.flags.v) d8)

/-- `BVS label`, opcode 70 (R158, R82). -/
def execBvs (d8 : Byte) (s : State) : Result := .next (s.branchIf s.flags.v d8)

/-- `JMP $hhll`, opcode 4C (R159, R77). -/
def execJmpAbs (a16 : Addr) (s : State) : Result := .next { s with pc := a16 }

/-- `JMP ($hhll)`, opcode 6C (R160, R83). -/
def execJmpInd (a16 : Addr) (s : State) : Result := .next { s with pc := indirectTarget s a16 }

/-- `JSR $hhll`, opcode 20 (R161, R77). -/
def execJsr (a16 : Addr) (s : State) : Result := .next { s.push16 (s.pc - 1) with pc := a16 }

/-- `RTS`, opcode 60 (R162, R71). -/
def execRts (s : State) : Result := .next { s.pull16.2 with pc := s.pull16.1 + 1 }

/-- `BRK`, opcode 00 (R163, R71). -/
def execBrk (s : State) : Result := .next (s.skipBytes Config.brkSkip).enterInterrupt

/-- `RTI`, opcode 40 (R164, R71). -/
def execRti (s : State) : Result := .next s.returnFromInterrupt

end Sys2Proof.Machine
end

