-- ==== Sys2Proof/Machine/LoadStore.lean ====
section
/-! DEFINITION. The load, store and register-transfer instructions (spec/43_load_store_transfer.md): one meaning per row of
the opcode table. In every meaning `pc` already stands at the next instruction (log entry 5). -/

namespace Sys2Proof.Machine

/-- `LDA #$nn`, opcode A9 (R130, R73). -/
def execLdaImm (d8 : Byte) (s : State) : Result := .next (s.loadA d8)

/-- `LDA $zz`, opcode A5 (R130, R74). -/
def execLdaZp (d8 : Byte) (s : State) : Result := .next (s.loadA (s.memRead (eaZp d8)))

/-- `LDA $zz,X`, opcode B5 (R130, R75). -/
def execLdaZpx (d8 : Byte) (s : State) : Result := .next (s.loadA (s.memRead (eaZpx s d8)))

/-- `LDA $hhll`, opcode AD (R130, R77). -/
def execLdaAbs (a16 : Addr) (s : State) : Result := .next (s.loadA (s.memRead (eaAbs a16)))

/-- `LDA $hhll,X`, opcode BD (R130, R78). -/
def execLdaAbx (a16 : Addr) (s : State) : Result := .next (s.loadA (s.memRead (eaAbx s a16)))

/-- `LDA $hhll,Y`, opcode B9 (R130, R79). -/
def execLdaAby (a16 : Addr) (s : State) : Result := .next (s.loadA (s.memRead (eaAby s a16)))

/-- `LDA ($zz,X)`, opcode A1 (R130, R80). -/
def execLdaIzx (d8 : Byte) (s : State) : Result := .next (s.loadA (s.memRead (eaIzx s d8)))

/-- `LDA ($zz),Y`, opcode B1 (R130, R81). -/
def execLdaIzy (d8 : Byte) (s : State) : Result := .next (s.loadA (s.memRead (eaIzy s d8)))

/-- `LDX #$nn`, opcode A2 (R131, R73). -/
def execLdxImm (d8 : Byte) (s : State) : Result := .next (s.loadX d8)

/-- `LDX $zz`, opcode A6 (R131, R74). -/
def execLdxZp (d8 : Byte) (s : State) : Result := .next (s.loadX (s.memRead (eaZp d8)))

/-- `LDX $zz,Y`, opcode B6 (R131, R76). -/
def execLdxZpy (d8 : Byte) (s : State) : Result := .next (s.loadX (s.memRead (eaZpy s d8)))

/-- `LDX $hhll`, opcode AE (R131, R77). -/
def execLdxAbs (a16 : Addr) (s : State) : Result := .next (s.loadX (s.memRead (eaAbs a16)))

/-- `LDX $hhll,Y`, opcode BE (R131, R79). -/
def execLdxAby (a16 : Addr) (s : State) : Result := .next (s.loadX (s.memRead (eaAby s a16)))

/-- `LDY #$nn`, opcode A0 (R132, R73). -/
def execLdyImm (d8 : Byte) (s : State) : Result := .next (s.loadY d8)

/-- `LDY $zz`, opcode A4 (R132, R74). -/
def execLdyZp (d8 : Byte) (s : State) : Result := .next (s.loadY (s.memRead (eaZp d8)))

/-- `LDY $zz,X`, opcode B4 (R132, R75). -/
def execLdyZpx (d8 : Byte) (s : State) : Result := .next (s.loadY (s.memRead (eaZpx s d8)))

/-- `LDY $hhll`, opcode AC (R132, R77). -/
def execLdyAbs (a16 : Addr) (s : State) : Result := .next (s.loadY (s.memRead (eaAbs a16)))

/-- `LDY $hhll,X`, opcode BC (R132, R78). -/
def execLdyAbx (a16 : Addr) (s : State) : Result := .next (s.loadY (s.memRead (eaAbx s a16)))

/-- `STA $zz`, opcode 85 (R133, R74). -/
def execStaZp (d8 : Byte) (s : State) : Result := .next (s.memWrite (eaZp d8) s.a)

/-- `STA $zz,X`, opcode 95 (R133, R75). -/
def execStaZpx (d8 : Byte) (s : State) : Result := .next (s.memWrite (eaZpx s d8) s.a)

/-- `STA $hhll`, opcode 8D (R133, R77). -/
def execStaAbs (a16 : Addr) (s : State) : Result := .next (s.memWrite (eaAbs a16) s.a)

/-- `STA $hhll,X`, opcode 9D (R133, R78). -/
def execStaAbx (a16 : Addr) (s : State) : Result := .next (s.memWrite (eaAbx s a16) s.a)

/-- `STA $hhll,Y`, opcode 99 (R133, R79). -/
def execStaAby (a16 : Addr) (s : State) : Result := .next (s.memWrite (eaAby s a16) s.a)

/-- `STA ($zz,X)`, opcode 81 (R133, R80). -/
def execStaIzx (d8 : Byte) (s : State) : Result := .next (s.memWrite (eaIzx s d8) s.a)

/-- `STA ($zz),Y`, opcode 91 (R133, R81). -/
def execStaIzy (d8 : Byte) (s : State) : Result := .next (s.memWrite (eaIzy s d8) s.a)

/-- `STX $zz`, opcode 86 (R134, R74). -/
def execStxZp (d8 : Byte) (s : State) : Result := .next (s.memWrite (eaZp d8) s.x)

/-- `STX $zz,Y`, opcode 96 (R134, R76). -/
def execStxZpy (d8 : Byte) (s : State) : Result := .next (s.memWrite (eaZpy s d8) s.x)

/-- `STX $hhll`, opcode 8E (R134, R77). -/
def execStxAbs (a16 : Addr) (s : State) : Result := .next (s.memWrite (eaAbs a16) s.x)

/-- `STY $zz`, opcode 84 (R135, R74). -/
def execStyZp (d8 : Byte) (s : State) : Result := .next (s.memWrite (eaZp d8) s.y)

/-- `STY $zz,X`, opcode 94 (R135, R75). -/
def execStyZpx (d8 : Byte) (s : State) : Result := .next (s.memWrite (eaZpx s d8) s.y)

/-- `STY $hhll`, opcode 8C (R135, R77). -/
def execStyAbs (a16 : Addr) (s : State) : Result := .next (s.memWrite (eaAbs a16) s.y)

/-- `TAX`, opcode AA (R136, R71). -/
def execTax (s : State) : Result := .next (s.loadX s.a)

/-- `TAY`, opcode A8 (R137, R71). -/
def execTay (s : State) : Result := .next (s.loadY s.a)

/-- `TXA`, opcode 8A (R138, R71). -/
def execTxa (s : State) : Result := .next (s.loadA s.x)

/-- `TYA`, opcode 98 (R139, R71). -/
def execTya (s : State) : Result := .next (s.loadA s.y)

/-- `TSX`, opcode BA (R140, R71). -/
def execTsx (s : State) : Result := .next (s.loadX s.sp)

/-- `TXS`, opcode 9A (R141, R71). -/
def execTxs (s : State) : Result := .next { s with sp := s.x }

end Sys2Proof.Machine
end

