-- ==== Sys2Proof/Machine/ShiftIncDec.lean ====
section
/-! DEFINITION. The shift, rotate, increment and decrement instructions (spec/42_shift_incdec.md): one meaning per row of
the opcode table. In every meaning `pc` already stands at the next instruction (log entry 5). -/

namespace Sys2Proof.Machine

/-- `ASL A`, opcode 0A (R110, R72). -/
def execAslAcc (s : State) : Result := .next (s.modifyA aluAsl)

/-- `ASL $zz`, opcode 06 (R110, R74). -/
def execAslZp (d8 : Byte) (s : State) : Result := .next (s.modifyMem aluAsl (eaZp d8))

/-- `ASL $zz,X`, opcode 16 (R110, R75). -/
def execAslZpx (d8 : Byte) (s : State) : Result := .next (s.modifyMem aluAsl (eaZpx s d8))

/-- `ASL $hhll`, opcode 0E (R110, R77). -/
def execAslAbs (a16 : Addr) (s : State) : Result := .next (s.modifyMem aluAsl (eaAbs a16))

/-- `ASL $hhll,X`, opcode 1E (R110, R78). -/
def execAslAbx (a16 : Addr) (s : State) : Result := .next (s.modifyMem aluAsl (eaAbx s a16))

/-- `LSR A`, opcode 4A (R111, R72). -/
def execLsrAcc (s : State) : Result := .next (s.modifyA aluLsr)

/-- `LSR $zz`, opcode 46 (R111, R74). -/
def execLsrZp (d8 : Byte) (s : State) : Result := .next (s.modifyMem aluLsr (eaZp d8))

/-- `LSR $zz,X`, opcode 56 (R111, R75). -/
def execLsrZpx (d8 : Byte) (s : State) : Result := .next (s.modifyMem aluLsr (eaZpx s d8))

/-- `LSR $hhll`, opcode 4E (R111, R77). -/
def execLsrAbs (a16 : Addr) (s : State) : Result := .next (s.modifyMem aluLsr (eaAbs a16))

/-- `LSR $hhll,X`, opcode 5E (R111, R78). -/
def execLsrAbx (a16 : Addr) (s : State) : Result := .next (s.modifyMem aluLsr (eaAbx s a16))

/-- `ROL A`, opcode 2A (R112, R72). -/
def execRolAcc (s : State) : Result := .next (s.modifyA aluRol)

/-- `ROL $zz`, opcode 26 (R112, R74). -/
def execRolZp (d8 : Byte) (s : State) : Result := .next (s.modifyMem aluRol (eaZp d8))

/-- `ROL $zz,X`, opcode 36 (R112, R75). -/
def execRolZpx (d8 : Byte) (s : State) : Result := .next (s.modifyMem aluRol (eaZpx s d8))

/-- `ROL $hhll`, opcode 2E (R112, R77). -/
def execRolAbs (a16 : Addr) (s : State) : Result := .next (s.modifyMem aluRol (eaAbs a16))

/-- `ROL $hhll,X`, opcode 3E (R112, R78). -/
def execRolAbx (a16 : Addr) (s : State) : Result := .next (s.modifyMem aluRol (eaAbx s a16))

/-- `ROR A`, opcode 6A (R113, R72). -/
def execRorAcc (s : State) : Result := .next (s.modifyA aluRor)

/-- `ROR $zz`, opcode 66 (R113, R74). -/
def execRorZp (d8 : Byte) (s : State) : Result := .next (s.modifyMem aluRor (eaZp d8))

/-- `ROR $zz,X`, opcode 76 (R113, R75). -/
def execRorZpx (d8 : Byte) (s : State) : Result := .next (s.modifyMem aluRor (eaZpx s d8))

/-- `ROR $hhll`, opcode 6E (R113, R77). -/
def execRorAbs (a16 : Addr) (s : State) : Result := .next (s.modifyMem aluRor (eaAbs a16))

/-- `ROR $hhll,X`, opcode 7E (R113, R78). -/
def execRorAbx (a16 : Addr) (s : State) : Result := .next (s.modifyMem aluRor (eaAbx s a16))

/-- `INC $zz`, opcode E6 (R114, R74). -/
def execIncZp (d8 : Byte) (s : State) : Result := .next (s.modifyMem aluInc (eaZp d8))

/-- `INC $zz,X`, opcode F6 (R114, R75). -/
def execIncZpx (d8 : Byte) (s : State) : Result := .next (s.modifyMem aluInc (eaZpx s d8))

/-- `INC $hhll`, opcode EE (R114, R77). -/
def execIncAbs (a16 : Addr) (s : State) : Result := .next (s.modifyMem aluInc (eaAbs a16))

/-- `INC $hhll,X`, opcode FE (R114, R78). -/
def execIncAbx (a16 : Addr) (s : State) : Result := .next (s.modifyMem aluInc (eaAbx s a16))

/-- `DEC $zz`, opcode C6 (R115, R74). -/
def execDecZp (d8 : Byte) (s : State) : Result := .next (s.modifyMem aluDec (eaZp d8))

/-- `DEC $zz,X`, opcode D6 (R115, R75). -/
def execDecZpx (d8 : Byte) (s : State) : Result := .next (s.modifyMem aluDec (eaZpx s d8))

/-- `DEC $hhll`, opcode CE (R115, R77). -/
def execDecAbs (a16 : Addr) (s : State) : Result := .next (s.modifyMem aluDec (eaAbs a16))

/-- `DEC $hhll,X`, opcode DE (R115, R78). -/
def execDecAbx (a16 : Addr) (s : State) : Result := .next (s.modifyMem aluDec (eaAbx s a16))

/-- `INX`, opcode E8 (R116, R71). -/
def execInx (s : State) : Result := .next (s.modifyX aluInc)

/-- `INY`, opcode C8 (R117, R71). -/
def execIny (s : State) : Result := .next (s.modifyY aluInc)

/-- `DEX`, opcode CA (R118, R71). -/
def execDex (s : State) : Result := .next (s.modifyX aluDec)

/-- `DEY`, opcode 88 (R119, R71). -/
def execDey (s : State) : Result := .next (s.modifyY aluDec)

end Sys2Proof.Machine
end

