-- ==== Sys2Proof/Machine/StackFlags.lean ====
section
/-! DEFINITION. The stack, flag and no-operation instructions (spec/45_stack_flags_nop.md): one meaning per row of
the opcode table. In every meaning `pc` already stands at the next instruction (log entry 5). -/

namespace Sys2Proof.Machine

/-- `PHA`, opcode 48 (R170, R71). -/
def execPha (s : State) : Result := .next (s.push s.a)

/-- `PLA`, opcode 68 (R171, R71). -/
def execPla (s : State) : Result := .next (s.pull.2.loadA s.pull.1)

/-- `PHP`, opcode 08 (R172, R71). -/
def execPhp (s : State) : Result := .next (s.push (packP s.flags))

/-- `PLP`, opcode 28 (R173, R71). -/
def execPlp (s : State) : Result := .next { s.pull.2 with flags := unpackP s.pull.1 }

/-- `CLC`, opcode 18 (R174, R71). -/
def execClc (s : State) : Result := .next { s with flags := { s.flags with c := false } }

/-- `SEC`, opcode 38 (R175, R71). -/
def execSec (s : State) : Result := .next { s with flags := { s.flags with c := true } }

/-- `CLI`, opcode 58 (R176, R71). -/
def execCli (s : State) : Result := .next { s with flags := { s.flags with i := false } }

/-- `SEI`, opcode 78 (R177, R71). -/
def execSei (s : State) : Result := .next { s with flags := { s.flags with i := true } }

/-- `CLV`, opcode B8 (R178, R71). -/
def execClv (s : State) : Result := .next { s with flags := { s.flags with v := false } }

/-- `CLD`, opcode D8 (R179, R71). -/
def execCld (s : State) : Result := .next { s with flags := { s.flags with d := false } }

/-- `SED`, opcode F8 (R180, R71). -/
def execSed (s : State) : Result := .next { s with flags := { s.flags with d := true } }

/-- `NOP`, opcode EA (R181, R71). -/
def execNop (s : State) : Result := .next s

end Sys2Proof.Machine
end

