-- ==== Sys2Proof/Machine/Dispatch.lean ====
section
/-! DEFINITION. The dispatch of an instruction to its meaning (spec/30_encoding.md R53), one arm per constructor. -/

namespace Sys2Proof.Machine

def exec (i : Instr) (s : State) : Host.Outcome State Fault Refusal :=
  match i with
  | .adcImm d8 => Sys2Proof.Machine.execAdcImm d8 s
  | .adcZp d8 => Sys2Proof.Machine.execAdcZp d8 s
  | .adcZpx d8 => Sys2Proof.Machine.execAdcZpx d8 s
  | .adcAbs a16 => Sys2Proof.Machine.execAdcAbs a16 s
  | .adcAbx a16 => Sys2Proof.Machine.execAdcAbx a16 s
  | .adcAby a16 => Sys2Proof.Machine.execAdcAby a16 s
  | .adcIzx d8 => Sys2Proof.Machine.execAdcIzx d8 s
  | .adcIzy d8 => Sys2Proof.Machine.execAdcIzy d8 s
  | .sbcImm d8 => Sys2Proof.Machine.execSbcImm d8 s
  | .sbcZp d8 => Sys2Proof.Machine.execSbcZp d8 s
  | .sbcZpx d8 => Sys2Proof.Machine.execSbcZpx d8 s
  | .sbcAbs a16 => Sys2Proof.Machine.execSbcAbs a16 s
  | .sbcAbx a16 => Sys2Proof.Machine.execSbcAbx a16 s
  | .sbcAby a16 => Sys2Proof.Machine.execSbcAby a16 s
  | .sbcIzx d8 => Sys2Proof.Machine.execSbcIzx d8 s
  | .sbcIzy d8 => Sys2Proof.Machine.execSbcIzy d8 s
  | .andImm d8 => Sys2Proof.Machine.execAndImm d8 s
  | .andZp d8 => Sys2Proof.Machine.execAndZp d8 s
  | .andZpx d8 => Sys2Proof.Machine.execAndZpx d8 s
  | .andAbs a16 => Sys2Proof.Machine.execAndAbs a16 s
  | .andAbx a16 => Sys2Proof.Machine.execAndAbx a16 s
  | .andAby a16 => Sys2Proof.Machine.execAndAby a16 s
  | .andIzx d8 => Sys2Proof.Machine.execAndIzx d8 s
  | .andIzy d8 => Sys2Proof.Machine.execAndIzy d8 s
  | .oraImm d8 => Sys2Proof.Machine.execOraImm d8 s
  | .oraZp d8 => Sys2Proof.Machine.execOraZp d8 s
  | .oraZpx d8 => Sys2Proof.Machine.execOraZpx d8 s
  | .oraAbs a16 => Sys2Proof.Machine.execOraAbs a16 s
  | .oraAbx a16 => Sys2Proof.Machine.execOraAbx a16 s
  | .oraAby a16 => Sys2Proof.Machine.execOraAby a16 s
  | .oraIzx d8 => Sys2Proof.Machine.execOraIzx d8 s
  | .oraIzy d8 => Sys2Proof.Machine.execOraIzy d8 s
  | .eorImm d8 => Sys2Proof.Machine.execEorImm d8 s
  | .eorZp d8 => Sys2Proof.Machine.execEorZp d8 s
  | .eorZpx d8 => Sys2Proof.Machine.execEorZpx d8 s
  | .eorAbs a16 => Sys2Proof.Machine.execEorAbs a16 s
  | .eorAbx a16 => Sys2Proof.Machine.execEorAbx a16 s
  | .eorAby a16 => Sys2Proof.Machine.execEorAby a16 s
  | .eorIzx d8 => Sys2Proof.Machine.execEorIzx d8 s
  | .eorIzy d8 => Sys2Proof.Machine.execEorIzy d8 s
  | .cmpImm d8 => Sys2Proof.Machine.execCmpImm d8 s
  | .cmpZp d8 => Sys2Proof.Machine.execCmpZp d8 s
  | .cmpZpx d8 => Sys2Proof.Machine.execCmpZpx d8 s
  | .cmpAbs a16 => Sys2Proof.Machine.execCmpAbs a16 s
  | .cmpAbx a16 => Sys2Proof.Machine.execCmpAbx a16 s
  | .cmpAby a16 => Sys2Proof.Machine.execCmpAby a16 s
  | .cmpIzx d8 => Sys2Proof.Machine.execCmpIzx d8 s
  | .cmpIzy d8 => Sys2Proof.Machine.execCmpIzy d8 s
  | .cpxImm d8 => Sys2Proof.Machine.execCpxImm d8 s
  | .cpxZp d8 => Sys2Proof.Machine.execCpxZp d8 s
  | .cpxAbs a16 => Sys2Proof.Machine.execCpxAbs a16 s
  | .cpyImm d8 => Sys2Proof.Machine.execCpyImm d8 s
  | .cpyZp d8 => Sys2Proof.Machine.execCpyZp d8 s
  | .cpyAbs a16 => Sys2Proof.Machine.execCpyAbs a16 s
  | .bitZp d8 => Sys2Proof.Machine.execBitZp d8 s
  | .bitAbs a16 => Sys2Proof.Machine.execBitAbs a16 s
  | .aslAcc => Sys2Proof.Machine.execAslAcc s
  | .aslZp d8 => Sys2Proof.Machine.execAslZp d8 s
  | .aslZpx d8 => Sys2Proof.Machine.execAslZpx d8 s
  | .aslAbs a16 => Sys2Proof.Machine.execAslAbs a16 s
  | .aslAbx a16 => Sys2Proof.Machine.execAslAbx a16 s
  | .lsrAcc => Sys2Proof.Machine.execLsrAcc s
  | .lsrZp d8 => Sys2Proof.Machine.execLsrZp d8 s
  | .lsrZpx d8 => Sys2Proof.Machine.execLsrZpx d8 s
  | .lsrAbs a16 => Sys2Proof.Machine.execLsrAbs a16 s
  | .lsrAbx a16 => Sys2Proof.Machine.execLsrAbx a16 s
  | .rolAcc => Sys2Proof.Machine.execRolAcc s
  | .rolZp d8 => Sys2Proof.Machine.execRolZp d8 s
  | .rolZpx d8 => Sys2Proof.Machine.execRolZpx d8 s
  | .rolAbs a16 => Sys2Proof.Machine.execRolAbs a16 s
  | .rolAbx a16 => Sys2Proof.Machine.execRolAbx a16 s
  | .rorAcc => Sys2Proof.Machine.execRorAcc s
  | .rorZp d8 => Sys2Proof.Machine.execRorZp d8 s
  | .rorZpx d8 => Sys2Proof.Machine.execRorZpx d8 s
  | .rorAbs a16 => Sys2Proof.Machine.execRorAbs a16 s
  | .rorAbx a16 => Sys2Proof.Machine.execRorAbx a16 s
  | .incZp d8 => Sys2Proof.Machine.execIncZp d8 s
  | .incZpx d8 => Sys2Proof.Machine.execIncZpx d8 s
  | .incAbs a16 => Sys2Proof.Machine.execIncAbs a16 s
  | .incAbx a16 => Sys2Proof.Machine.execIncAbx a16 s
  | .decZp d8 => Sys2Proof.Machine.execDecZp d8 s
  | .decZpx d8 => Sys2Proof.Machine.execDecZpx d8 s
  | .decAbs a16 => Sys2Proof.Machine.execDecAbs a16 s
  | .decAbx a16 => Sys2Proof.Machine.execDecAbx a16 s
  | .inx => Sys2Proof.Machine.execInx s
  | .iny => Sys2Proof.Machine.execIny s
  | .dex => Sys2Proof.Machine.execDex s
  | .dey => Sys2Proof.Machine.execDey s
  | .ldaImm d8 => Sys2Proof.Machine.execLdaImm d8 s
  | .ldaZp d8 => Sys2Proof.Machine.execLdaZp d8 s
  | .ldaZpx d8 => Sys2Proof.Machine.execLdaZpx d8 s
  | .ldaAbs a16 => Sys2Proof.Machine.execLdaAbs a16 s
  | .ldaAbx a16 => Sys2Proof.Machine.execLdaAbx a16 s
  | .ldaAby a16 => Sys2Proof.Machine.execLdaAby a16 s
  | .ldaIzx d8 => Sys2Proof.Machine.execLdaIzx d8 s
  | .ldaIzy d8 => Sys2Proof.Machine.execLdaIzy d8 s
  | .ldxImm d8 => Sys2Proof.Machine.execLdxImm d8 s
  | .ldxZp d8 => Sys2Proof.Machine.execLdxZp d8 s
  | .ldxZpy d8 => Sys2Proof.Machine.execLdxZpy d8 s
  | .ldxAbs a16 => Sys2Proof.Machine.execLdxAbs a16 s
  | .ldxAby a16 => Sys2Proof.Machine.execLdxAby a16 s
  | .ldyImm d8 => Sys2Proof.Machine.execLdyImm d8 s
  | .ldyZp d8 => Sys2Proof.Machine.execLdyZp d8 s
  | .ldyZpx d8 => Sys2Proof.Machine.execLdyZpx d8 s
  | .ldyAbs a16 => Sys2Proof.Machine.execLdyAbs a16 s
  | .ldyAbx a16 => Sys2Proof.Machine.execLdyAbx a16 s
  | .staZp d8 => Sys2Proof.Machine.execStaZp d8 s
  | .staZpx d8 => Sys2Proof.Machine.execStaZpx d8 s
  | .staAbs a16 => Sys2Proof.Machine.execStaAbs a16 s
  | .staAbx a16 => Sys2Proof.Machine.execStaAbx a16 s
  | .staAby a16 => Sys2Proof.Machine.execStaAby a16 s
  | .staIzx d8 => Sys2Proof.Machine.execStaIzx d8 s
  | .staIzy d8 => Sys2Proof.Machine.execStaIzy d8 s
  | .stxZp d8 => Sys2Proof.Machine.execStxZp d8 s
  | .stxZpy d8 => Sys2Proof.Machine.execStxZpy d8 s
  | .stxAbs a16 => Sys2Proof.Machine.execStxAbs a16 s
  | .styZp d8 => Sys2Proof.Machine.execStyZp d8 s
  | .styZpx d8 => Sys2Proof.Machine.execStyZpx d8 s
  | .styAbs a16 => Sys2Proof.Machine.execStyAbs a16 s
  | .tax => Sys2Proof.Machine.execTax s
  | .tay => Sys2Proof.Machine.execTay s
  | .txa => Sys2Proof.Machine.execTxa s
  | .tya => Sys2Proof.Machine.execTya s
  | .tsx => Sys2Proof.Machine.execTsx s
  | .txs => Sys2Proof.Machine.execTxs s
  | .bcc d8 => Sys2Proof.Machine.execBcc d8 s
  | .bcs d8 => Sys2Proof.Machine.execBcs d8 s
  | .beq d8 => Sys2Proof.Machine.execBeq d8 s
  | .bne d8 => Sys2Proof.Machine.execBne d8 s
  | .bmi d8 => Sys2Proof.Machine.execBmi d8 s
  | .bpl d8 => Sys2Proof.Machine.execBpl d8 s
  | .bvc d8 => Sys2Proof.Machine.execBvc d8 s
  | .bvs d8 => Sys2Proof.Machine.execBvs d8 s
  | .jmpAbs a16 => Sys2Proof.Machine.execJmpAbs a16 s
  | .jmpInd a16 => Sys2Proof.Machine.execJmpInd a16 s
  | .jsr a16 => Sys2Proof.Machine.execJsr a16 s
  | .rts => Sys2Proof.Machine.execRts s
  | .brk => Sys2Proof.Machine.execBrk s
  | .rti => Sys2Proof.Machine.execRti s
  | .pha => Sys2Proof.Machine.execPha s
  | .pla => Sys2Proof.Machine.execPla s
  | .php => Sys2Proof.Machine.execPhp s
  | .plp => Sys2Proof.Machine.execPlp s
  | .clc => Sys2Proof.Machine.execClc s
  | .sec => Sys2Proof.Machine.execSec s
  | .cli => Sys2Proof.Machine.execCli s
  | .sei => Sys2Proof.Machine.execSei s
  | .clv => Sys2Proof.Machine.execClv s
  | .cld => Sys2Proof.Machine.execCld s
  | .sed => Sys2Proof.Machine.execSed s
  | .nop => Sys2Proof.Machine.execNop s

end Sys2Proof.Machine
end

