-- ==== Sys2Proof/Decode.lean ====
section
/-! DEFINITION. The decoder, total on any bytes, and after it the encoder. The decoder is a lookup of the whole opcode byte
(spec/30_encoding.md R50) in a table laid out as R54's 16 by 16 matrix; the encoder is written from R54's table by
mnemonic, so that a slip in one of the two is seen by their round trip. -/

namespace Sys2Proof

/-- What an opcode byte selects: an instruction of format F1, F2 or F3, awaiting its operand (R51). -/
inductive Form where
  | f1 (i : Instr)
  | f2 (mk : Byte → Instr)
  | f3 (mk : Addr → Instr)

/-- Row 0x of the opcode matrix (R54). -/
def opcodeRow0 : List (Byte × Form) :=
  [(0x00, .f1 .brk), (0x01, .f2 .oraIzx), (0x05, .f2 .oraZp), (0x06, .f2 .aslZp), (0x08, .f1 .php),
   (0x09, .f2 .oraImm), (0x0A, .f1 .aslAcc), (0x0D, .f3 .oraAbs), (0x0E, .f3 .aslAbs)]

/-- Row 1x of the opcode matrix (R54). -/
def opcodeRow1 : List (Byte × Form) :=
  [(0x10, .f2 .bpl), (0x11, .f2 .oraIzy), (0x15, .f2 .oraZpx), (0x16, .f2 .aslZpx), (0x18, .f1 .clc),
   (0x19, .f3 .oraAby), (0x1D, .f3 .oraAbx), (0x1E, .f3 .aslAbx)]

/-- Row 2x of the opcode matrix (R54). -/
def opcodeRow2 : List (Byte × Form) :=
  [(0x20, .f3 .jsr), (0x21, .f2 .andIzx), (0x24, .f2 .bitZp), (0x25, .f2 .andZp), (0x26, .f2 .rolZp),
   (0x28, .f1 .plp), (0x29, .f2 .andImm), (0x2A, .f1 .rolAcc), (0x2C, .f3 .bitAbs), (0x2D, .f3 .andAbs),
   (0x2E, .f3 .rolAbs)]

/-- Row 3x of the opcode matrix (R54). -/
def opcodeRow3 : List (Byte × Form) :=
  [(0x30, .f2 .bmi), (0x31, .f2 .andIzy), (0x35, .f2 .andZpx), (0x36, .f2 .rolZpx), (0x38, .f1 .sec),
   (0x39, .f3 .andAby), (0x3D, .f3 .andAbx), (0x3E, .f3 .rolAbx)]

/-- Row 4x of the opcode matrix (R54). -/
def opcodeRow4 : List (Byte × Form) :=
  [(0x40, .f1 .rti), (0x41, .f2 .eorIzx), (0x45, .f2 .eorZp), (0x46, .f2 .lsrZp), (0x48, .f1 .pha),
   (0x49, .f2 .eorImm), (0x4A, .f1 .lsrAcc), (0x4C, .f3 .jmpAbs), (0x4D, .f3 .eorAbs),
   (0x4E, .f3 .lsrAbs)]

/-- Row 5x of the opcode matrix (R54). -/
def opcodeRow5 : List (Byte × Form) :=
  [(0x50, .f2 .bvc), (0x51, .f2 .eorIzy), (0x55, .f2 .eorZpx), (0x56, .f2 .lsrZpx), (0x58, .f1 .cli),
   (0x59, .f3 .eorAby), (0x5D, .f3 .eorAbx), (0x5E, .f3 .lsrAbx)]

/-- Row 6x of the opcode matrix (R54). -/
def opcodeRow6 : List (Byte × Form) :=
  [(0x60, .f1 .rts), (0x61, .f2 .adcIzx), (0x65, .f2 .adcZp), (0x66, .f2 .rorZp), (0x68, .f1 .pla),
   (0x69, .f2 .adcImm), (0x6A, .f1 .rorAcc), (0x6C, .f3 .jmpInd), (0x6D, .f3 .adcAbs),
   (0x6E, .f3 .rorAbs)]

/-- Row 7x of the opcode matrix (R54). -/
def opcodeRow7 : List (Byte × Form) :=
  [(0x70, .f2 .bvs), (0x71, .f2 .adcIzy), (0x75, .f2 .adcZpx), (0x76, .f2 .rorZpx), (0x78, .f1 .sei),
   (0x79, .f3 .adcAby), (0x7D, .f3 .adcAbx), (0x7E, .f3 .rorAbx)]

/-- Row 8x of the opcode matrix (R54). -/
def opcodeRow8 : List (Byte × Form) :=
  [(0x81, .f2 .staIzx), (0x84, .f2 .styZp), (0x85, .f2 .staZp), (0x86, .f2 .stxZp), (0x88, .f1 .dey),
   (0x8A, .f1 .txa), (0x8C, .f3 .styAbs), (0x8D, .f3 .staAbs), (0x8E, .f3 .stxAbs)]

/-- Row 9x of the opcode matrix (R54). -/
def opcodeRow9 : List (Byte × Form) :=
  [(0x90, .f2 .bcc), (0x91, .f2 .staIzy), (0x94, .f2 .styZpx), (0x95, .f2 .staZpx), (0x96, .f2 .stxZpy),
   (0x98, .f1 .tya), (0x99, .f3 .staAby), (0x9A, .f1 .txs), (0x9D, .f3 .staAbx)]

/-- Row Ax of the opcode matrix (R54). -/
def opcodeRowA : List (Byte × Form) :=
  [(0xA0, .f2 .ldyImm), (0xA1, .f2 .ldaIzx), (0xA2, .f2 .ldxImm), (0xA4, .f2 .ldyZp),
   (0xA5, .f2 .ldaZp), (0xA6, .f2 .ldxZp), (0xA8, .f1 .tay), (0xA9, .f2 .ldaImm), (0xAA, .f1 .tax),
   (0xAC, .f3 .ldyAbs), (0xAD, .f3 .ldaAbs), (0xAE, .f3 .ldxAbs)]

/-- Row Bx of the opcode matrix (R54). -/
def opcodeRowB : List (Byte × Form) :=
  [(0xB0, .f2 .bcs), (0xB1, .f2 .ldaIzy), (0xB4, .f2 .ldyZpx), (0xB5, .f2 .ldaZpx), (0xB6, .f2 .ldxZpy),
   (0xB8, .f1 .clv), (0xB9, .f3 .ldaAby), (0xBA, .f1 .tsx), (0xBC, .f3 .ldyAbx), (0xBD, .f3 .ldaAbx),
   (0xBE, .f3 .ldxAby)]

/-- Row Cx of the opcode matrix (R54). -/
def opcodeRowC : List (Byte × Form) :=
  [(0xC0, .f2 .cpyImm), (0xC1, .f2 .cmpIzx), (0xC4, .f2 .cpyZp), (0xC5, .f2 .cmpZp), (0xC6, .f2 .decZp),
   (0xC8, .f1 .iny), (0xC9, .f2 .cmpImm), (0xCA, .f1 .dex), (0xCC, .f3 .cpyAbs), (0xCD, .f3 .cmpAbs),
   (0xCE, .f3 .decAbs)]

/-- Row Dx of the opcode matrix (R54). -/
def opcodeRowD : List (Byte × Form) :=
  [(0xD0, .f2 .bne), (0xD1, .f2 .cmpIzy), (0xD5, .f2 .cmpZpx), (0xD6, .f2 .decZpx), (0xD8, .f1 .cld),
   (0xD9, .f3 .cmpAby), (0xDD, .f3 .cmpAbx), (0xDE, .f3 .decAbx)]

/-- Row Ex of the opcode matrix (R54). -/
def opcodeRowE : List (Byte × Form) :=
  [(0xE0, .f2 .cpxImm), (0xE1, .f2 .sbcIzx), (0xE4, .f2 .cpxZp), (0xE5, .f2 .sbcZp), (0xE6, .f2 .incZp),
   (0xE8, .f1 .inx), (0xE9, .f2 .sbcImm), (0xEA, .f1 .nop), (0xEC, .f3 .cpxAbs), (0xED, .f3 .sbcAbs),
   (0xEE, .f3 .incAbs)]

/-- Row Fx of the opcode matrix (R54). -/
def opcodeRowF : List (Byte × Form) :=
  [(0xF0, .f2 .beq), (0xF1, .f2 .sbcIzy), (0xF5, .f2 .sbcZpx), (0xF6, .f2 .incZpx), (0xF8, .f1 .sed),
   (0xF9, .f3 .sbcAby), (0xFD, .f3 .sbcAbx), (0xFE, .f3 .incAbx)]

/-- The opcode table: 151 of the 256 byte values hold an entry (R54). A constant of the design. -/
def opcodeTable : List (Byte × Form) :=
  opcodeRow0 ++ opcodeRow1 ++ opcodeRow2 ++ opcodeRow3 ++ opcodeRow4 ++ opcodeRow5 ++ opcodeRow6 ++ opcodeRow7
    ++ opcodeRow8 ++ opcodeRow9 ++ opcodeRowA ++ opcodeRowB ++ opcodeRowC ++ opcodeRowD ++ opcodeRowE ++
    opcodeRowF

/-- The entry of byte `b` in a list of rows, if it has one. -/
def findForm (b : Byte) : List (Byte × Form) → Option Form
  | [] => none
  | (k, f) :: rest => if b = k then some f else findForm b rest

/-- The dispatcher's lookup (R50, R53): `none` is an unmapped byte (R55). -/
def opcodeForm (b : Byte) : Option Form := findForm b opcodeTable

/-- Why bytes do not decode. -/
inductive DecodeError where
  /-- The first byte has no entry in the opcode table (R55). -/
  | illegalOpcode (b : Byte)
  /-- The bytes given end before the instruction does. Memory never ends, so no step meets this. -/
  | truncated
deriving DecidableEq, Repr

/-- The instruction at the head of a byte string, and the bytes after it (R50 to R52, R57). No operand byte is looked at
for an unmapped opcode byte. -/
def decode : List Byte → Except DecodeError (Instr × List Byte)
  | [] => .error .truncated
  | op :: rest =>
    match opcodeForm op with
    | none => .error (.illegalOpcode op)
    | some (.f1 i) => .ok (i, rest)
    | some (.f2 mk) =>
      match rest with
      | d8 :: rest' => .ok (mk d8, rest')
      | [] => .error .truncated
    | some (.f3 mk) =>
      match rest with
      | lo :: hi :: rest' => .ok (mk (joinBytes hi lo), rest')
      | _ => .error .truncated

/-- The opcode byte of an instruction: the cell of R54's table by mnemonic. -/
def Instr.opcode : Instr → Byte
  | .adcImm _ => 0x69
  | .adcZp _ => 0x65
  | .adcZpx _ => 0x75
  | .adcAbs _ => 0x6D
  | .adcAbx _ => 0x7D
  | .adcAby _ => 0x79
  | .adcIzx _ => 0x61
  | .adcIzy _ => 0x71
  | .sbcImm _ => 0xE9
  | .sbcZp _ => 0xE5
  | .sbcZpx _ => 0xF5
  | .sbcAbs _ => 0xED
  | .sbcAbx _ => 0xFD
  | .sbcAby _ => 0xF9
  | .sbcIzx _ => 0xE1
  | .sbcIzy _ => 0xF1
  | .andImm _ => 0x29
  | .andZp _ => 0x25
  | .andZpx _ => 0x35
  | .andAbs _ => 0x2D
  | .andAbx _ => 0x3D
  | .andAby _ => 0x39
  | .andIzx _ => 0x21
  | .andIzy _ => 0x31
  | .oraImm _ => 0x09
  | .oraZp _ => 0x05
  | .oraZpx _ => 0x15
  | .oraAbs _ => 0x0D
  | .oraAbx _ => 0x1D
  | .oraAby _ => 0x19
  | .oraIzx _ => 0x01
  | .oraIzy _ => 0x11
  | .eorImm _ => 0x49
  | .eorZp _ => 0x45
  | .eorZpx _ => 0x55
  | .eorAbs _ => 0x4D
  | .eorAbx _ => 0x5D
  | .eorAby _ => 0x59
  | .eorIzx _ => 0x41
  | .eorIzy _ => 0x51
  | .cmpImm _ => 0xC9
  | .cmpZp _ => 0xC5
  | .cmpZpx _ => 0xD5
  | .cmpAbs _ => 0xCD
  | .cmpAbx _ => 0xDD
  | .cmpAby _ => 0xD9
  | .cmpIzx _ => 0xC1
  | .cmpIzy _ => 0xD1
  | .cpxImm _ => 0xE0
  | .cpxZp _ => 0xE4
  | .cpxAbs _ => 0xEC
  | .cpyImm _ => 0xC0
  | .cpyZp _ => 0xC4
  | .cpyAbs _ => 0xCC
  | .bitZp _ => 0x24
  | .bitAbs _ => 0x2C
  | .aslAcc => 0x0A
  | .aslZp _ => 0x06
  | .aslZpx _ => 0x16
  | .aslAbs _ => 0x0E
  | .aslAbx _ => 0x1E
  | .lsrAcc => 0x4A
  | .lsrZp _ => 0x46
  | .lsrZpx _ => 0x56
  | .lsrAbs _ => 0x4E
  | .lsrAbx _ => 0x5E
  | .rolAcc => 0x2A
  | .rolZp _ => 0x26
  | .rolZpx _ => 0x36
  | .rolAbs _ => 0x2E
  | .rolAbx _ => 0x3E
  | .rorAcc => 0x6A
  | .rorZp _ => 0x66
  | .rorZpx _ => 0x76
  | .rorAbs _ => 0x6E
  | .rorAbx _ => 0x7E
  | .incZp _ => 0xE6
  | .incZpx _ => 0xF6
  | .incAbs _ => 0xEE
  | .incAbx _ => 0xFE
  | .decZp _ => 0xC6
  | .decZpx _ => 0xD6
  | .decAbs _ => 0xCE
  | .decAbx _ => 0xDE
  | .inx => 0xE8
  | .iny => 0xC8
  | .dex => 0xCA
  | .dey => 0x88
  | .ldaImm _ => 0xA9
  | .ldaZp _ => 0xA5
  | .ldaZpx _ => 0xB5
  | .ldaAbs _ => 0xAD
  | .ldaAbx _ => 0xBD
  | .ldaAby _ => 0xB9
  | .ldaIzx _ => 0xA1
  | .ldaIzy _ => 0xB1
  | .ldxImm _ => 0xA2
  | .ldxZp _ => 0xA6
  | .ldxZpy _ => 0xB6
  | .ldxAbs _ => 0xAE
  | .ldxAby _ => 0xBE
  | .ldyImm _ => 0xA0
  | .ldyZp _ => 0xA4
  | .ldyZpx _ => 0xB4
  | .ldyAbs _ => 0xAC
  | .ldyAbx _ => 0xBC
  | .staZp _ => 0x85
  | .staZpx _ => 0x95
  | .staAbs _ => 0x8D
  | .staAbx _ => 0x9D
  | .staAby _ => 0x99
  | .staIzx _ => 0x81
  | .staIzy _ => 0x91
  | .stxZp _ => 0x86
  | .stxZpy _ => 0x96
  | .stxAbs _ => 0x8E
  | .styZp _ => 0x84
  | .styZpx _ => 0x94
  | .styAbs _ => 0x8C
  | .tax => 0xAA
  | .tay => 0xA8
  | .txa => 0x8A
  | .tya => 0x98
  | .tsx => 0xBA
  | .txs => 0x9A
  | .bcc _ => 0x90
  | .bcs _ => 0xB0
  | .beq _ => 0xF0
  | .bne _ => 0xD0
  | .bmi _ => 0x30
  | .bpl _ => 0x10
  | .bvc _ => 0x50
  | .bvs _ => 0x70
  | .jmpAbs _ => 0x4C
  | .jmpInd _ => 0x6C
  | .jsr _ => 0x20
  | .rts => 0x60
  | .brk => 0x00
  | .rti => 0x40
  | .pha => 0x48
  | .pla => 0x68
  | .php => 0x08
  | .plp => 0x28
  | .clc => 0x18
  | .sec => 0x38
  | .cli => 0x58
  | .sei => 0x78
  | .clv => 0xB8
  | .cld => 0xD8
  | .sed => 0xF8
  | .nop => 0xEA

/-- The operand bytes of a mode, in memory order: none, `d8`, or `a16` low byte first (R51, R52). -/
def Addressing.bytes : Addressing → List Byte
  | .imp | .acc => []
  | .imm d8 | .zp d8 | .zpx d8 | .zpy d8 | .izx d8 | .izy d8 | .rel d8 => [d8]
  | .abs a16 | .abx a16 | .aby a16 | .ind a16 => [lowByte a16, highByte a16]

/-- The bytes of an instruction in memory order (R51). -/
def encode (i : Instr) : List Byte := i.opcode :: i.addressing.bytes

/-- Byte `k` of an instruction given as a number, bit 0 being the least significant bit of its first byte; the bits from
`nbits` on are zero. -/
def tableByte (nbits w k : Nat) : Byte := BitVec.ofNat 8 ((w % 2 ^ nbits) / 256 ^ k)

/-- What the decoder reads from an instruction whose bits are `w`, laid out in memory order, three bytes long (the longest
instruction, R50). -/
def decodeTableWord (nbits w : Nat) : Option Instr :=
  match decode [tableByte nbits w 0, tableByte nbits w 1, tableByte nbits w 2] with
  | .ok (i, _) => some i
  | .error _ => none

end Sys2Proof
end

