-- ==== Sys2Proof/Machine/Fetch.lean ====
section
/-! DEFINITION. Fetching an instruction (spec/30_encoding.md R53, 20_memory.md R33): the opcode byte, then as many operand
bytes as its form has, each by `Fetch()`, low byte first. -/

namespace Sys2Proof.Machine

/-- What the fetch of one instruction gives, with the state after it. -/
inductive Fetched where
  /-- A mapped opcode: the instruction, `pc` standing after its last byte. -/
  | instr (i : Instr) (s : State)
  /-- An unmapped opcode byte: no operand byte has been fetched (R55, R191). -/
  | illegal (opcode : Byte) (s : State)
deriving DecidableEq, Repr

/-- The operand bytes of a form, by `Fetch()`, byte 1 first (R52). -/
def fetchOperand (s : State) : Form → Instr × State
  | .f1 i => (i, s)
  | .f2 mk => (mk s.fetch.1, s.fetch.2)
  | .f3 mk =>
    let lo := s.fetch
    let hi := lo.2.fetch
    (mk (joinBytes hi.1 lo.1), hi.2)

/-- The dispatcher's fetch and lookup (R53). -/
def fetchInstr (s : State) : Fetched :=
  let op := s.fetch
  match opcodeForm op.1 with
  | none => .illegal op.1 op.2
  | some form =>
    let p := fetchOperand op.2 form
    .instr p.1 p.2

/-- The bytes `bs` stored at `addr` and the addresses after it, modulo 65536 (R34). -/
def State.writeBytes (s : State) (addr : Addr) : List Byte → State
  | [] => s
  | b :: bs => (s.memWrite addr b).writeBytes (addr + 1) bs

/-- The bytes at `addr` and the `n - 1` addresses after it, modulo 65536 (R34, R50). -/
def State.readBytes (s : State) (addr : Addr) : Nat → List Byte
  | 0 => []
  | n + 1 => s.memRead addr :: s.readBytes (addr + 1) n

end Sys2Proof.Machine
end

