-- ==== Sys2Proof/Machine/Step.lean ====
section
/-! DEFINITION. One step (spec/30_encoding.md R53, 70_reset_and_hazards.md R213), and the placing of one instruction where
the next step fetches it (log entry 3). -/

namespace Sys2Proof.Machine

/-- `step()`: fetch the instruction, then run it; an unmapped opcode byte raises the illegal-opcode fault (R191). -/
def step (s : State) : Host.Outcome State Fault Refusal :=
  match fetchInstr s with
  | .instr i s' => exec i s'
  | .illegal opcode s' => raiseIllegalOpcode opcode s.pc s'

/-- The three bytes of the instruction whose bits are `w`, stored at `pc` (R46, R50); nothing else changes. -/
def State.withFetchWord (s : State) (nbits w : Nat) : State :=
  s.writeBytes s.pc [tableByte nbits w 0, tableByte nbits w 1, tableByte nbits w 2]

end Sys2Proof.Machine
end

