-- ==== Sys2Proof/Machine/HostOps.lean ====
section
/-! DEFINITION. The host's transactions, performed between steps (spec/00_scope.md R3): `power_on()`, `read_memory`,
`write_memory`, `register_snapshot()`, and `step()` as a call that answers `Ok` or `Fault(opcode, pc0)` and always leaves a
state (60_exceptions.md R192, 70_reset_and_hazards.md R213), and runs of calls under the conventions for their end (R214). -/

namespace Sys2Proof.Machine

/-- `power_on()` at any time between steps (R210): the state before it plays no part. -/
def hostPowerOn (r : ResetValues) (_ : State) : State := State.powerOn r

/-- `read_memory(addr)` (R46). -/
def hostReadMemory (addr : Addr) (s : State) : Byte := s.memRead addr

/-- `write_memory(addr, value)` (R46): one byte, and nothing else. -/
def hostWriteMemory (addr : Addr) (value : Byte) (s : State) : State := s.memWrite addr value

/-- The copy of the register file that `register_snapshot()` returns (R199). -/
structure Snapshot where
  pc : Addr
  sp : Byte
  a : Byte
  x : Byte
  y : Byte
  flags : Flags
deriving DecidableEq, Repr

/-- `register_snapshot()` (R199): read-only. -/
def hostSnapshot (s : State) : Snapshot where
  pc := s.pc
  sp := s.sp
  a := s.a
  x := s.x
  y := s.y
  flags := s.flags

/-- What a call of `step()` answers (R3, R213). -/
inductive CallResult where
  /-- `Ok`: one instruction was executed. -/
  | ok
  /-- `Fault(opcode, pc0)` (R191). -/
  | fault (opcode : Byte) (pc0 : Addr)
  /-- The model's own: an instruction without a meaning. No call answers it, since every arm of `exec` has its meaning. -/
  | refused (r : Refusal)
deriving DecidableEq, Repr

/-- One call of `step()`: its answer, and the state from which the next call goes on. A fault is not sticky (R192). -/
def hostStep (s : State) : CallResult × State :=
  match step s with
  | .next s' => (.ok, s')
  | .fault (.illegalOpcode opcode pc0 after) => (.fault opcode pc0, after)
  | .refused r => (.refused r, s)

/-- `n` calls of `step()`, going on after a fault (R192). -/
def hostSteps : Nat → State → State
  | 0, s => s
  | n + 1, s => hostSteps n (hostStep s).2

/-- The three conventions for the end of a run (R214, D17). The choice is the host's: the hardware has no halt. -/
inductive EndOfRun where
  /-- (a): a fixed number of steps. -/
  | fixedCount
  /-- (b): the first step that returns a fault. -/
  | firstFault
  /-- (c): the first step after which `pc` equals its value before the step and no memory or register changed. -/
  | unchanged
deriving DecidableEq, Repr

/-- Whether a call of `step()` answered a fault. -/
def CallResult.isFault : CallResult → Bool
  | .fault _ _ => true
  | .ok | .refused _ => false

/-- Whether the convention ends the run at a call, given its answer and the states before and after it (R214). -/
def EndOfRun.endsAt : EndOfRun → CallResult → State → State → Bool
  | .fixedCount, _, _, _ => false
  | .firstFault, answer, _, _ => answer.isFault
  | .unchanged, _, before, after => decide (after = before)

/-- What a run gives the host: nothing of a call is dropped, so the host can also decide for itself. -/
structure Run where
  /-- The answers of the calls, the first first. -/
  answers : List CallResult
  /-- The state after the last call. -/
  last : State
  /-- The convention ended the run; else the bound on the calls did, and the run goes on from `last`. -/
  ended : Bool
deriving DecidableEq, Repr

/-- A run of at most `n` calls of `step()` under a convention (R214): under (a) just `n` of them, under (b) and (c) fewer if
the convention ends it first. The bound is the model's, since a program may loop for ever (log entry 8). -/
def hostRun (c : EndOfRun) : Nat → State → Run
  | 0, s => { answers := [], last := s, ended := c == .fixedCount }
  | n + 1, s =>
    let p := hostStep s
    if c.endsAt p.1 s p.2 then { answers := [p.1], last := p.2, ended := true }
    else
      let rest := hostRun c n p.2
      { rest with answers := p.1 :: rest.answers }

end Sys2Proof.Machine
end

