-- ==== Sys2Proof/Safety.lean ====
section
/-! DEFINITION. The terms claims are stated in: what a safe step is, the unmapped bytes (spec/30_encoding.md R55), which
instruction writes which register, flag and byte of memory (10_state.md R23, R24; 40_addressing_modes.md R84), and the
shapes that several statements share. Nothing in the machine uses them. -/

namespace Sys2Proof.Machine

/-- The 105 unmapped opcode bytes, as R55 lists them. -/
def illegalBytes : List Byte :=
  [0x02, 0x03, 0x04, 0x07, 0x0B, 0x0C, 0x0F, 0x12, 0x13, 0x14, 0x17, 0x1A, 0x1B, 0x1C, 0x1F, 0x22,
   0x23, 0x27, 0x2B, 0x2F, 0x32, 0x33, 0x34, 0x37, 0x3A, 0x3B, 0x3C, 0x3F, 0x42, 0x43, 0x44, 0x47,
   0x4B, 0x4F, 0x52, 0x53, 0x54, 0x57, 0x5A, 0x5B, 0x5C, 0x5F, 0x62, 0x63, 0x64, 0x67, 0x6B, 0x6F,
   0x72, 0x73, 0x74, 0x77, 0x7A, 0x7B, 0x7C, 0x7F, 0x80, 0x82, 0x83, 0x87, 0x89, 0x8B, 0x8F, 0x92,
   0x93, 0x97, 0x9B, 0x9C, 0x9E, 0x9F, 0xA3, 0xA7, 0xAB, 0xAF, 0xB2, 0xB3, 0xB7, 0xBB, 0xBF, 0xC2,
   0xC3, 0xC7, 0xCB, 0xCF, 0xD2, 0xD3, 0xD4, 0xD7, 0xDA, 0xDB, 0xDC, 0xDF, 0xE2, 0xE3, 0xE7, 0xEB,
   0xEF, 0xF2, 0xF3, 0xF4, 0xF7, 0xFA, 0xFB, 0xFC, 0xFF]

/-- A safe step: it answers a next state, not a fault. -/
def SafeStep (s : State) : Prop := ∃ t, step s = .next t

/-- The invariant every step keeps: the memory is in its canonical form. (The widths of R21 are in the types.) -/
abbrev State.Inv (s : State) : Prop := s.mem.wf = true

/-- The "Encoding" line of an instruction rule: the mnemonic exists in exactly these modes, with these opcode bytes. -/
def EncodingLine (mn : Mnemonic) (cells : List (Mode × Byte)) : Prop :=
  (∀ i : Instr, i.mnemonic = mn → (i.addressing.mode, i.opcode) ∈ cells) ∧
    ∀ c ∈ cells, ∃ i : Instr, i.mnemonic = mn ∧ i.addressing.mode = c.1 ∧ i.opcode = c.2

/-- A boolean as the number 0 or 1. -/
def bitNat (b : Bool) : Nat := if b then 1 else 0

/-- The flags `f` with `Z` and `N` from the byte `r` (R18), said by comparison and arithmetic. -/
def zn (f : Flags) (r : Byte) : Flags := { f with z := decide (r = 0), n := decide (128 ≤ r.toNat) }

/-- A read-class instruction: it completes with the state `result m`, for its operand byte `m` (R70). -/
def ReadsOperand (i : Instr) (s : State) (result : Byte → State) : Prop :=
  ∃ m, operandByte i.addressing s = some m ∧ exec i s = .next (result m)

/-- An instruction of the accumulator class (mode ACC: `A <- result A`) or of the read-modify-write class (the byte at its
effective address); either way it completes, with the flags given from the operand before (R70, R84). -/
def ModifiesOperand (i : Instr) (s : State) (result : Byte → Byte) (flags : Byte → Flags) : Prop :=
  (i.addressing = .acc ∧ exec i s = .next { s with a := result s.a, flags := flags s.a }) ∨
    ∃ ea, effectiveAddress i.addressing s = some ea ∧
      exec i s = .next (State.memWrite { s with flags := flags (s.memRead ea) } ea (result (s.memRead ea)))

/-- The instructions that write `A` (R23). -/
def writesA (i : Instr) : Bool :=
  [Mnemonic.adc, .sbc, .and, .ora, .eor, .lda, .pla, .txa, .tya].contains i.mnemonic ||
    ([Mnemonic.asl, .lsr, .rol, .ror].contains i.mnemonic && i.addressing == .acc)

/-- The instructions that write `X` (R23). -/
def writesX (i : Instr) : Bool := [Mnemonic.ldx, .tax, .tsx, .inx, .dex].contains i.mnemonic

/-- The instructions that write `Y` (R23). -/
def writesY (i : Instr) : Bool := [Mnemonic.ldy, .tay, .iny, .dey].contains i.mnemonic

/-- The instructions that write `SP` (R23). -/
def writesSP (i : Instr) : Bool :=
  [Mnemonic.txs, .pha, .php, .pla, .plp, .jsr, .rts, .brk, .rti].contains i.mnemonic

/-- The instructions that write `pc` directly, beyond their fetches (R11, R23). -/
def writesPC (i : Instr) : Bool :=
  [Mnemonic.bcc, .bcs, .beq, .bne, .bmi, .bpl, .bvc, .bvs, .jmp, .jsr, .rts, .brk, .rti].contains i.mnemonic

/-- The addresses of the bytes an instruction stores to, in the order of its stores: the effective address of a store or
of a read-modify-write (R84), the stack slots of a push (R48, R161, R163), none for every other form. -/
def storedAt (i : Instr) (s : State) : List Addr :=
  match i.mnemonic with
  | .sta | .stx | .sty | .asl | .lsr | .rol | .ror | .inc | .dec => (effectiveAddress i.addressing s).toList
  | .pha | .php => [stackAddr s.sp]
  | .jsr => [stackAddr s.sp, stackAddr (s.sp - 1)]
  | .brk => [stackAddr s.sp, stackAddr (s.sp - 1), stackAddr (s.sp - 2)]
  | .adc | .sbc | .and | .ora | .eor | .cmp | .cpx | .cpy | .bit | .inx | .iny | .dex | .dey | .lda | .ldx | .ldy
  | .tax | .tay | .txa | .tya | .tsx | .txs | .bcc | .bcs | .beq | .bne | .bmi | .bpl | .bvc | .bvs | .jmp | .rts | .rti
  | .pla | .plp | .clc | .sec | .cli | .sei | .clv | .cld | .sed | .nop => []

/-- The six flags by name (R14). -/
inductive Flag where
  | n | v | d | i | z | c
deriving DecidableEq, Repr

/-- The value of a flag. -/
def Flags.get (f : Flags) : Flag → Bool
  | .n => f.n
  | .v => f.v
  | .d => f.d
  | .i => f.i
  | .z => f.z
  | .c => f.c

/-- The bit of the status byte that holds a flag (R15). -/
def Flag.position : Flag → Nat
  | .n => 7
  | .v => 6
  | .d => 3
  | .i => 2
  | .z => 1
  | .c => 0

/-- The entries of R24's table: `-`, `*`, `0`, `1`, `m6`, `m7`, `P`. -/
inductive FlagEffect where
  | dash | star | zero | one | m6 | m7 | p
deriving DecidableEq, Repr

/-- A row of R24's table, in its column order. -/
structure FlagRow where
  n : FlagEffect
  v : FlagEffect
  d : FlagEffect
  i : FlagEffect
  z : FlagEffect
  c : FlagEffect
deriving DecidableEq, Repr

/-- The entry of a row under a flag. -/
def FlagRow.get (r : FlagRow) : Flag → FlagEffect
  | .n => r.n
  | .v => r.v
  | .d => r.d
  | .i => r.i
  | .z => r.z
  | .c => r.c

/-- R24's table. -/
def flagRow : Mnemonic → FlagRow
  | .adc | .sbc => ⟨.star, .star, .dash, .dash, .star, .star⟩
  | .and | .ora | .eor => ⟨.star, .dash, .dash, .dash, .star, .dash⟩
  | .asl | .lsr | .rol | .ror => ⟨.star, .dash, .dash, .dash, .star, .star⟩
  | .inc | .dec | .inx | .iny | .dex | .dey => ⟨.star, .dash, .dash, .dash, .star, .dash⟩
  | .cmp | .cpx | .cpy => ⟨.star, .dash, .dash, .dash, .star, .star⟩
  | .bit => ⟨.m7, .m6, .dash, .dash, .star, .dash⟩
  | .lda | .ldx | .ldy => ⟨.star, .dash, .dash, .dash, .star, .dash⟩
  | .tax | .tay | .txa | .tya | .tsx | .pla => ⟨.star, .dash, .dash, .dash, .star, .dash⟩
  | .sta | .stx | .sty | .txs | .pha | .php | .nop => ⟨.dash, .dash, .dash, .dash, .dash, .dash⟩
  | .jmp | .jsr | .rts | .bcc | .bcs | .beq | .bne | .bmi | .bpl | .bvc | .bvs =>
    ⟨.dash, .dash, .dash, .dash, .dash, .dash⟩
  | .brk => ⟨.dash, .dash, .dash, .one, .dash, .dash⟩
  | .plp | .rti => ⟨.p, .p, .p, .p, .p, .p⟩
  | .clc => ⟨.dash, .dash, .dash, .dash, .dash, .zero⟩
  | .sec => ⟨.dash, .dash, .dash, .dash, .dash, .one⟩
  | .cli => ⟨.dash, .dash, .dash, .zero, .dash, .dash⟩
  | .sei => ⟨.dash, .dash, .dash, .one, .dash, .dash⟩
  | .cld => ⟨.dash, .dash, .zero, .dash, .dash, .dash⟩
  | .sed => ⟨.dash, .dash, .one, .dash, .dash, .dash⟩
  | .clv => ⟨.dash, .zero, .dash, .dash, .dash, .dash⟩

/-- What an entry of R24 says of the flag `fl` between the states before and after: kept, forced, a bit of the operand, or
the flag's bit of the pulled status byte. (What a `*` computes is said by the instruction's own statement.) -/
def FlagEffect.Holds (e : FlagEffect) (fl : Flag) (i : Instr) (s t : State) : Prop :=
  match e with
  | .dash => t.flags.get fl = s.flags.get fl
  | .star => True
  | .zero => t.flags.get fl = false
  | .one => t.flags.get fl = true
  | .m6 => ∃ m, operandByte i.addressing s = some m ∧ t.flags.get fl = m.getLsbD 6
  | .m7 => ∃ m, operandByte i.addressing s = some m ∧ t.flags.get fl = m.getLsbD 7
  | .p => t.flags.get fl = (s.memRead (stackAddr (s.sp + 1))).getLsbD fl.position

end Sys2Proof.Machine
end

