-- ==== Sys2Proof/Certificates/Slice0/Obligations.lean ====
section
/-! DEFINITION. The statements for the provers, each a proposition about the machine. A statement about an instruction is about
`exec` in the state in which `pc` already stands past the instruction's bytes; `StepFetchesDecodesAndRuns` says that a step
is just that. -/

open Sys2Proof Sys2Proof.Machine

/-- One word or more of every instruction file (ALU, shift, load and store, control flow, stack and flags), its bits
written out from R54 and R51, decodes to its instruction with its operand; the byte 0xFF decodes to nothing. (R51,
R52, R54, R55) -/
def Obligations.KnownWordsDecode : Prop :=
  decode [0b01101001, 0x10] = .ok (.adcImm 0x10, []) ∧
  decode [0b01101101, 0x34, 0x12] = .ok (.adcAbs 0x1234, []) ∧
  decode [0b11110001, 0x86] = .ok (.sbcIzy 0x86, []) ∧
  decode [0b00101100, 0x00, 0x30] = .ok (.bitAbs 0x3000, []) ∧
  decode [0b00001010] = .ok (.aslAcc, []) ∧
  decode [0b01110110, 0x10] = .ok (.rorZpx 0x10, []) ∧
  decode [0b11111110, 0xFF, 0x12] = .ok (.incAbx 0x12FF, []) ∧
  decode [0b10000001, 0x20] = .ok (.staIzx 0x20, []) ∧
  decode [0b10110110, 0xF0] = .ok (.ldxZpy 0xF0, []) ∧
  decode [0b11010000, 0xFE] = .ok (.bne 0xFE, []) ∧
  decode [0b01101100, 0xFF, 0x02] = .ok (.jmpInd 0x02FF, []) ∧
  decode [0b00100000, 0x34, 0x12] = .ok (.jsr 0x1234, []) ∧
  decode [0b00000000] = .ok (.brk, []) ∧
  decode [0b00001000] = .ok (.php, []) ∧
  decode [0b00101000] = .ok (.plp, []) ∧
  decode [0b11101010] = .ok (.nop, []) ∧
  decode [0b11111111] = .error (.illegalOpcode 0xFF)

/-- For every instruction, with every operand at every value, and every byte string after it, decode of its encoding
followed by that string is the instruction and that string: no bit of an encoding is dropped. (R50, R51, R52, R54)
-/
def Obligations.DecodeOfEncode : Prop :=
  ∀ (i : Instr) (rest : List Byte), decode (encode i ++ rest) = .ok (i, rest)

/-- For every byte string that decodes to an instruction with some bytes left over, the string is the encoding of
that instruction followed by the bytes left over: no two encodings of one instruction, no byte of it unread. (R50,
R51, R52, R54, R56) -/
def Obligations.EncodeOfDecode : Prop :=
  ∀ (bs : List Byte) (i : Instr) (rest : List Byte), decode bs = .ok (i, rest) → bs = encode i ++ rest

/-- Two instructions with the same opcode byte have the same mnemonic, the same addressing mode and the same length.
(R50, R54, R57) -/
def Obligations.OpcodeByteSelectsOperationAndMode : Prop :=
  ∀ i j : Instr, i.opcode = j.opcode →
    i.mnemonic = j.mnemonic ∧ i.addressing.mode = j.addressing.mode ∧ i.length = j.length

/-- The encoding of every instruction is 1 byte long in the modes IMP and ACC, 2 bytes in IMM, ZP, ZPX, ZPY, IZX,
IZY and REL, 3 bytes in ABS, ABX, ABY and IND, and begins with its opcode byte. (R51, R57) -/
def Obligations.EncodingLengthByMode : Prop :=
  ∀ i : Instr, (encode i).head? = some i.opcode ∧ (encode i).length = i.length ∧
    (encode i).length =
      if i.addressing.mode ∈ [Mode.imp, .acc] then 1
      else if i.addressing.mode ∈ [Mode.imm, .zp, .zpx, .zpy, .izx, .izy, .rel] then 2 else 3

/-- When the bytes at pc decode to an instruction, step is exec of that instruction in the state whose pc has moved
on by its length; when they do not, the first byte is unmapped and step is the fault IllegalOpcode(opcode, pc0) with
pc moved on by one and nothing else changed; the bytes at pc never end too early. That exec runs with pc past all
the bytes is read from the rules cited (log entry 5, DEDUCED), and the answer truncated is a constructor of the
model's decoder (log entry 7). (R33, R51, R53, R191) -/
def Obligations.StepFetchesDecodesAndRuns : Prop :=
  ∀ s : State,
    (∀ i rest, decode (s.readBytes s.pc 3) = .ok (i, rest) →
      step s = exec i { s with pc := s.pc + BitVec.ofNat 16 i.length }) ∧
    (∀ b, decode (s.readBytes s.pc 3) = .error (.illegalOpcode b) →
      b = s.memRead s.pc ∧ step s = .fault (.illegalOpcode b s.pc { s with pc := s.pc + 1 })) ∧
    decode (s.readBytes s.pc 3) ≠ .error .truncated

/-- A byte has no entry in the opcode table exactly when it is one of the 105 bytes of R55; a step that fetches one
answers Fault(opcode, pc0) with the byte and the address it was fetched from, and leaves pc = pc0 + 1 (modulo 65536)
and everything else as it was. (R55, R191) -/
def Obligations.UnmappedBytesFault : Prop :=
  illegalBytes.length = 105 ∧
  (∀ b : Byte, opcodeForm b = none ↔ b ∈ illegalBytes) ∧
  ∀ s : State, s.memRead s.pc ∈ illegalBytes →
    step s = .fault (.illegalOpcode (s.memRead s.pc) s.pc { s with pc := s.pc + 1 })

/-- In every state, a call of step() answers Ok, and step a next state, when the byte at pc is mapped; it answers
Fault(opcode, pc0) when it is one of the 105 unmapped bytes; it never answers anything else. (R53, R191, R213) -/
def Obligations.StepAlwaysAnswers : Prop :=
  ∀ s : State,
    if s.memRead s.pc ∈ illegalBytes then
      hostStep s = (.fault (s.memRead s.pc) s.pc, { s with pc := s.pc + 1 })
    else ∃ t, step s = .next t ∧ hostStep s = (.ok, t)

/-- After a call that faulted at pc0, the next call of step is the call in the state that differs from the one
before the fault in pc alone, which is pc0 + 1; if a NOP stands there it answers Ok with pc = pc0 + 2. (R191, R192,
R181) -/
def Obligations.FaultIsNotSticky : Prop :=
  ∀ s : State, s.memRead s.pc ∈ illegalBytes →
    hostStep (hostStep s).2 = hostStep { s with pc := s.pc + 1 } ∧
    (s.memRead (s.pc + 1) = 0xEA → hostStep (hostStep s).2 = (.ok, { s with pc := s.pc + 2 }))

/-- When the bytes at pc decode to an instruction other than a branch, JMP, JSR, RTS, BRK or RTI, step answers a
next state whose pc is the old pc plus the length of the instruction, modulo 65536. (R11, R33, R51) -/
def Obligations.SequentialInstructionsAdvancePc : Prop :=
  ∀ (s : State) (i : Instr) (rest : List Byte), decode (s.readBytes s.pc 3) = .ok (i, rest) → writesPC i = false →
    ∃ t, step s = .next t ∧ t.pc = s.pc + BitVec.ofNat 16 i.length

/-- After STA to an address, LDX of any absolute address completes and loads the stored byte if it is that address,
and otherwise the byte that was there before the store. (R31, R32, R42) -/
def Obligations.StoreThenLoadReturnsTheByte : Prop :=
  ∀ (s : State) (p q : Addr), ∃ t u, exec (.staAbs p) s = .next t ∧ exec (.ldxAbs q) t = .next u ∧
    u.x = (if q = p then s.a else s.memRead q) ∧ ∀ a, u.memRead a = if a = p then s.a else s.memRead a

/-- When a store instruction stores the byte b at the address where pc already stands (the next instruction), it
completes, and the very next fetch returns b. (R33, R44) -/
def Obligations.StoreIsSeenByTheNextFetch : Prop :=
  ∀ (i : Instr) (s : State) (b : Byte), effectiveAddress i.addressing s = some s.pc →
    (i.mnemonic = .sta ∧ b = s.a) ∨ (i.mnemonic = .stx ∧ b = s.x) ∨ (i.mnemonic = .sty ∧ b = s.y) →
    ∃ t, exec i s = .next t ∧ t.fetch = (b, { t with pc := s.pc + 1 })

/-- Memories in the canonical form (addresses strictly rising and below 65536, no entry zero) that give the same
byte at each of the 65536 addresses are the same data. The canonical form is the model's (log entry 4). (R19, R30)
-/
def Obligations.CanonicalMemoriesThatReadAlikeAreEqual : Prop :=
  ∀ m m' : Memory, m.wf = true → m'.wf = true → (∀ a : Addr, m.read a.toNat = m'.read a.toNat) → m = m'

/-- From any state whose memory is canonical: a step that answers a next state leaves it canonical, and so do the
state a fault leaves, a host write, power_on() with any reset values, any number of calls of step() and a run under
any convention for its end; read_memory and register_snapshot leave no state. The canonical form is the model's (log
entry 4, DESIGN CHOICE), no rule of the spec. (R19, R32, R21, R3) -/
def Obligations.StepsKeepMemoryCanonical : Prop :=
  (∀ s t : State, s.Inv → step s = .next t → t.Inv) ∧
  (∀ (s t : State) (b : Byte) (p : Addr), s.Inv → step s = .fault (.illegalOpcode b p t) → t.Inv) ∧
  (∀ (s : State) (a : Addr) (v : Byte), s.Inv → (hostWriteMemory a v s).Inv) ∧
  (∀ (s : State) (r : ResetValues), s.Inv → (hostPowerOn r s).Inv) ∧
  (∀ (n : Nat) (s : State), s.Inv → (hostSteps n s).Inv) ∧
  ∀ (c : EndOfRun) (n : Nat) (s : State), s.Inv → (hostRun c n s).last.Inv

/-- For every value of the ten open reset parameters the state after power_on() satisfies the memory invariant, and
so does the reset state. The canonical form is the model's (log entry 4, DESIGN CHOICE), no rule of the spec; the
rules cited give the memory that has it. (R22, R210) -/
def Obligations.PowerOnMemoryIsCanonical : Prop :=
  (∀ r : ResetValues, (State.powerOn r).Inv) ∧ State.reset.Inv

/-- For every value of the ten open reset parameters and whatever the state before: after power_on() every byte of
memory is zero, pc is the little-endian reset vector at 0xFFFC/0xFFFD, which is 0x0000, and SP, A, X, Y and the six
flags hold their parameters. (R22, R210) -/
def Obligations.PowerOnState : Prop :=
  ∀ (r : ResetValues) (s : State), let t := hostPowerOn r s
    (∀ a : Addr, t.memRead a = 0x00) ∧ t.pc = t.read16 0xFFFC 0xFFFD ∧ t.pc = 0x0000 ∧
    t.sp = r.sp ∧ t.a = r.a ∧ t.x = r.x ∧ t.y = r.y ∧
    t.flags = { c := r.c, z := r.z, i := r.i, d := r.d, v := r.v, n := r.n }

/-- read_memory(addr) returns Mem[addr]; write_memory(addr, value) sets that byte, leaves every other byte and every
register as it was; a byte seeded before power_on() is lost. (R46) -/
def Obligations.HostMemoryInterface : Prop :=
  ∀ (s : State) (a b : Addr) (v : Byte) (r : ResetValues),
    hostReadMemory b (hostWriteMemory a v s) = (if b = a then v else hostReadMemory b s) ∧
    hostReadMemory a s = s.mem.read a.toNat ∧
    hostSnapshot (hostWriteMemory a v s) = hostSnapshot s ∧
    hostReadMemory a (hostPowerOn r (hostWriteMemory a v s)) = 0x00

/-- ZP addresses d8; ZPX addresses (d8 + X) mod 256; ZPY addresses (d8 + Y) mod 256; each zero-extended, so below
0x0100. (R74, R75, R76, R34) -/
def Obligations.ZeroPageModes : Prop :=
  ∀ (s : State) (d8 : Byte),
    effectiveAddress (.zp d8) s = some (BitVec.ofNat 16 d8.toNat) ∧
    effectiveAddress (.zpx d8) s = some (BitVec.ofNat 16 ((d8.toNat + s.x.toNat) % 256)) ∧
    effectiveAddress (.zpy d8) s = some (BitVec.ofNat 16 ((d8.toNat + s.y.toNat) % 256)) ∧
    ∀ am ∈ [Addressing.zp d8, .zpx d8, .zpy d8], ∀ ea, effectiveAddress am s = some ea → ea.toNat < 0x0100

/-- The two operand bytes lo, hi give the address hi * 256 + lo; ABS uses it, ABX adds X and ABY adds Y, modulo
65536. (R77, R78, R79, R34, R35) -/
def Obligations.AbsoluteModes : Prop :=
  ∀ (s : State) (lo hi : Byte), let base := hi.toNat * 256 + lo.toNat
    decode [0xAD, lo, hi] = .ok (.ldaAbs (joinBytes hi lo), []) ∧
    effectiveAddress (.abs (joinBytes hi lo)) s = some (BitVec.ofNat 16 base) ∧
    effectiveAddress (.abx (joinBytes hi lo)) s = some (BitVec.ofNat 16 ((base + s.x.toNat) % 65536)) ∧
    effectiveAddress (.aby (joinBytes hi lo)) s = some (BitVec.ofNat 16 ((base + s.y.toNat) % 65536))

/-- IZX reads its pointer at (d8 + X) mod 256 and the next byte modulo 256; IZY reads it at d8 and the next byte
modulo 256 and adds Y modulo 65536. (R80, R81, R34, R35) -/
def Obligations.IndirectModes : Prop :=
  ∀ (s : State) (d8 : Byte), let zp (k : Nat) : Nat := (s.memRead (BitVec.ofNat 16 (k % 256))).toNat
    effectiveAddress (.izx d8) s =
      some (BitVec.ofNat 16 (zp (d8.toNat + s.x.toNat + 1) * 256 + zp (d8.toNat + s.x.toNat))) ∧
    effectiveAddress (.izy d8) s =
      some (BitVec.ofNat 16 ((zp (d8.toNat + 1) * 256 + zp d8.toNat + s.y.toNat) % 65536))

/-- IMM delivers the fetched byte, ACC delivers A, every mode with an effective address delivers the byte read
there, and IMP, REL and IND deliver no operand byte. (R70, R71, R72, R73) -/
def Obligations.OperandOfEachMode : Prop :=
  ∀ (s : State) (d8 : Byte) (a16 : Addr),
    operandByte (.imm d8) s = some d8 ∧ operandByte .acc s = some s.a ∧
    (∀ am ea, effectiveAddress am s = some ea → operandByte am s = some (s.memRead ea)) ∧
    ∀ am ∈ [Addressing.imp, .rel d8, .ind a16], operandByte am s = none

/-- ADC exists in the eight modes with the opcode bytes of its Encoding line. In every form it completes with A the
sum of A, m and C modulo 256, C the carry out, Z and N of the result, V set exactly when A and m have the same sign
and the result another; everything else is unchanged. (R90) -/
def Obligations.AdcAddsWithCarry : Prop :=
  EncodingLine .adc [(.imm, 0x69), (.zp, 0x65), (.zpx, 0x75), (.abs, 0x6D), (.abx, 0x7D), (.aby, 0x79),
    (.izx, 0x61), (.izy, 0x71)] ∧
  ∀ (i : Instr) (s : State), i.mnemonic = .adc → ReadsOperand i s fun m =>
    let total := s.a.toNat + m.toNat + bitNat s.flags.c
    let r : Byte := BitVec.ofNat 8 total
    { s with
      a := r
      flags := { zn s.flags r with
        c := decide (256 ≤ total)
        v := decide (s.a.getLsbD 7 = m.getLsbD 7 ∧ r.getLsbD 7 ≠ s.a.getLsbD 7) } }

/-- SBC exists in the eight modes with the opcode bytes of its Encoding line. In every form it completes with A = (A
- m - (1 - C)) mod 256, C set exactly when A >= m + (1 - C), Z and N of the result, V set exactly when A and m
differ in sign and the result differs from A; everything else is unchanged. (R91) -/
def Obligations.SbcSubtractsWithBorrow : Prop :=
  EncodingLine .sbc [(.imm, 0xE9), (.zp, 0xE5), (.zpx, 0xF5), (.abs, 0xED), (.abx, 0xFD), (.aby, 0xF9),
    (.izx, 0xE1), (.izy, 0xF1)] ∧
  ∀ (i : Instr) (s : State), i.mnemonic = .sbc → ReadsOperand i s fun m =>
    let borrow := 1 - bitNat s.flags.c
    let r : Byte := BitVec.ofInt 8 (s.a.toNat - m.toNat - borrow : Int)
    { s with
      a := r
      flags := { zn s.flags r with
        c := decide (m.toNat + borrow ≤ s.a.toNat)
        v := decide (s.a.getLsbD 7 ≠ m.getLsbD 7 ∧ r.getLsbD 7 ≠ s.a.getLsbD 7) } }

/-- Reading A and m as signed: after ADC, V is 1 exactly when A + m + C lies outside -128..127; after SBC, exactly
when A - m - (1 - C) does; for every form of the two. (R90, R91, R99) -/
def Obligations.OverflowFlagIsSignedOverflow : Prop :=
  ∀ (i : Instr) (s : State),
    (i.mnemonic = .adc → ∃ m t, operandByte i.addressing s = some m ∧ exec i s = .next t ∧
      (t.flags.v = true ↔ ¬(-128 ≤ s.a.toInt + m.toInt + bitNat s.flags.c ∧
        s.a.toInt + m.toInt + bitNat s.flags.c ≤ 127))) ∧
    (i.mnemonic = .sbc → ∃ m t, operandByte i.addressing s = some m ∧ exec i s = .next t ∧
      (t.flags.v = true ↔ ¬(-128 ≤ s.a.toInt - m.toInt - (1 - bitNat s.flags.c) ∧
        s.a.toInt - m.toInt - (1 - bitNat s.flags.c) ≤ 127)))

/-- Every instruction but PHP and BRK gives, from a state with another D, the same next state but for D itself,
which the instruction either writes or keeps; in particular ADC and SBC do. No instruction other than SED, CLD, PLP
and RTI changes D. (R100) -/
def Obligations.DecimalFlagIsOnlyStored : Prop :=
  (∀ (i : Instr) (s : State) (b : Bool), i.mnemonic ≠ .php → i.mnemonic ≠ .brk →
    ∃ t, exec i s = .next t ∧
      exec i { s with flags := { s.flags with d := b } } =
        .next (if i.mnemonic ∈ [Mnemonic.sed, .cld, .plp, .rti] then t
          else { t with flags := { t.flags with d := b } })) ∧
  ∀ (i : Instr) (s : State), i.mnemonic ∉ [Mnemonic.sed, .cld, .plp, .rti] →
    ∃ t, exec i s = .next t ∧ t.flags.d = s.flags.d

/-- Every instruction but PHP and BRK gives, from a state with another I, the same next state but for I itself; BRK
goes to the same address with the same registers whatever I was. No instruction other than BRK, SEI, CLI, PLP and
RTI changes I. (R193, R14, R163) -/
def Obligations.InterruptFlagMasksNothing : Prop :=
  (∀ (i : Instr) (s : State) (b : Bool), i.mnemonic ≠ .php → i.mnemonic ≠ .brk →
    ∃ t, exec i s = .next t ∧
      exec i { s with flags := { s.flags with i := b } } =
        .next (if i.mnemonic ∈ [Mnemonic.sei, .cli, .plp, .rti] then t
          else { t with flags := { t.flags with i := b } })) ∧
  (∀ (s : State) (b : Bool), ∃ t u, exec .brk s = .next t ∧
    exec .brk { s with flags := { s.flags with i := b } } = .next u ∧ hostSnapshot u = hostSnapshot t) ∧
  ∀ (i : Instr) (s : State), i.mnemonic ∉ [Mnemonic.brk, .sei, .cli, .plp, .rti] →
    ∃ t, exec i s = .next t ∧ t.flags.i = s.flags.i

/-- Each exists in its eight modes with the opcode bytes of its Encoding line; in every form it completes with A the
bitwise AND, OR or exclusive OR of A and m, Z and N of the result, and everything else unchanged. (R92, R93, R94) -/
def Obligations.LogicCombinesWithAccumulator : Prop :=
  EncodingLine .and [(.imm, 0x29), (.zp, 0x25), (.zpx, 0x35), (.abs, 0x2D), (.abx, 0x3D), (.aby, 0x39),
    (.izx, 0x21), (.izy, 0x31)] ∧
  EncodingLine .ora [(.imm, 0x09), (.zp, 0x05), (.zpx, 0x15), (.abs, 0x0D), (.abx, 0x1D), (.aby, 0x19),
    (.izx, 0x01), (.izy, 0x11)] ∧
  EncodingLine .eor [(.imm, 0x49), (.zp, 0x45), (.zpx, 0x55), (.abs, 0x4D), (.abx, 0x5D), (.aby, 0x59),
    (.izx, 0x41), (.izy, 0x51)] ∧
  ∀ (i : Instr) (s : State),
    (i.mnemonic = .and → ReadsOperand i s fun m => { s with a := s.a &&& m, flags := zn s.flags (s.a &&& m) }) ∧
    (i.mnemonic = .ora → ReadsOperand i s fun m => { s with a := s.a ||| m, flags := zn s.flags (s.a ||| m) }) ∧
    (i.mnemonic = .eor → ReadsOperand i s fun m => { s with a := s.a ^^^ m, flags := zn s.flags (s.a ^^^ m) })

/-- Each exists in its modes with the opcode bytes of its Encoding line; in every form it completes with C =
(register >= m) unsigned, Z = (register = m), N = bit 7 of the 8-bit difference; no register, no memory and no other
flag changes. (R95, R96, R97) -/
def Obligations.ComparesSetFlagsOnly : Prop :=
  EncodingLine .cmp [(.imm, 0xC9), (.zp, 0xC5), (.zpx, 0xD5), (.abs, 0xCD), (.abx, 0xDD), (.aby, 0xD9),
    (.izx, 0xC1), (.izy, 0xD1)] ∧
  EncodingLine .cpx [(.imm, 0xE0), (.zp, 0xE4), (.abs, 0xEC)] ∧
  EncodingLine .cpy [(.imm, 0xC0), (.zp, 0xC4), (.abs, 0xCC)] ∧
  ∀ (i : Instr) (s : State), let compared (r m : Byte) : State :=
      { s with flags := { s.flags with
        c := decide (m.toNat ≤ r.toNat), z := decide (r = m), n := decide (128 ≤ (r - m).toNat) } }
    (i.mnemonic = .cmp → ReadsOperand i s (compared s.a)) ∧
    (i.mnemonic = .cpx → ReadsOperand i s (compared s.x)) ∧
    (i.mnemonic = .cpy → ReadsOperand i s (compared s.y))

/-- BIT exists in ZP and ABS with its opcode bytes; it completes with Z = ((A AND m) = 0), N = m[7], V = m[6]; A,
memory and the other flags are unchanged. (R98) -/
def Obligations.BitTestsTheOperand : Prop :=
  EncodingLine .bit [(.zp, 0x24), (.abs, 0x2C)] ∧
  ∀ (i : Instr) (s : State), i.mnemonic = .bit → ReadsOperand i s fun m =>
    { s with flags := { s.flags with
      z := decide (s.a &&& m = 0), n := decide (128 ≤ m.toNat), v := decide (m.toNat / 64 % 2 = 1) } }

/-- Each exists in ACC, ZP, ZPX, ABS and ABX with its opcode bytes. ASL gives 2m mod 256 with C = m[7], LSR gives m
/ 2 with C = m[0]; Z and N are of the result; in ACC the operand and destination are A, else the one byte at the
effective address; everything else is unchanged. (R110, R111) -/
def Obligations.ShiftsMoveOneBit : Prop :=
  EncodingLine .asl [(.acc, 0x0A), (.zp, 0x06), (.zpx, 0x16), (.abs, 0x0E), (.abx, 0x1E)] ∧
  EncodingLine .lsr [(.acc, 0x4A), (.zp, 0x46), (.zpx, 0x56), (.abs, 0x4E), (.abx, 0x5E)] ∧
  ∀ (i : Instr) (s : State), let left (m : Byte) : Byte := BitVec.ofNat 8 (2 * m.toNat)
    let right (m : Byte) : Byte := BitVec.ofNat 8 (m.toNat / 2)
    (i.mnemonic = .asl → ModifiesOperand i s left fun m =>
      { zn s.flags (left m) with c := decide (128 ≤ m.toNat) }) ∧
    (i.mnemonic = .lsr → ModifiesOperand i s right fun m =>
      { zn s.flags (right m) with c := decide (m.toNat % 2 = 1) })

/-- Each exists in ACC, ZP, ZPX, ABS and ABX with its opcode bytes. ROL gives (2m mod 256) + C with the new C =
m[7], ROR gives m / 2 + 128 C with the new C = m[0]; Z and N are of the result; in ACC the operand and destination
are A, else the one byte at the effective address; everything else is unchanged. (R112, R113) -/
def Obligations.RotatesGoThroughCarry : Prop :=
  EncodingLine .rol [(.acc, 0x2A), (.zp, 0x26), (.zpx, 0x36), (.abs, 0x2E), (.abx, 0x3E)] ∧
  EncodingLine .ror [(.acc, 0x6A), (.zp, 0x66), (.zpx, 0x76), (.abs, 0x6E), (.abx, 0x7E)] ∧
  ∀ (i : Instr) (s : State), let left (m : Byte) : Byte := BitVec.ofNat 8 (2 * m.toNat + bitNat s.flags.c)
    let right (m : Byte) : Byte := BitVec.ofNat 8 (m.toNat / 2 + 128 * bitNat s.flags.c)
    (i.mnemonic = .rol → ModifiesOperand i s left fun m =>
      { zn s.flags (left m) with c := decide (128 ≤ m.toNat) }) ∧
    (i.mnemonic = .ror → ModifiesOperand i s right fun m =>
      { zn s.flags (right m) with c := decide (m.toNat % 2 = 1) })

/-- From every state, ROL A then ROR A completes and restores A and C; so does ROR A then ROL A; and so do the two
in either order on one zero-page byte. (R112, R113) -/
def Obligations.RotatePairsRestore : Prop :=
  ∀ (s : State) (d8 : Byte),
    (∀ p ∈ [(Instr.rolAcc, Instr.rorAcc), (.rorAcc, .rolAcc)], ∃ t u, exec p.1 s = .next t ∧ exec p.2 t = .next u ∧
      u.a = s.a ∧ u.flags.c = s.flags.c) ∧
    ∀ p ∈ [(Instr.rolZp d8, Instr.rorZp d8), (.rorZp d8, .rolZp d8)], ∃ t u, exec p.1 s = .next t ∧
      exec p.2 t = .next u ∧ u.flags.c = s.flags.c ∧ ∀ a, u.memRead a = s.memRead a

/-- Each exists in ZP, ZPX, ABS and ABX with its opcode bytes; it completes with the byte at the effective address
replaced by m + 1 or m - 1 modulo 256, Z and N of the result; C, V, the registers and every other byte are
unchanged. (R114, R115) -/
def Obligations.IncAndDecOfMemory : Prop :=
  EncodingLine .inc [(.zp, 0xE6), (.zpx, 0xF6), (.abs, 0xEE), (.abx, 0xFE)] ∧
  EncodingLine .dec [(.zp, 0xC6), (.zpx, 0xD6), (.abs, 0xCE), (.abx, 0xDE)] ∧
  ∀ (i : Instr) (s : State),
    (i.mnemonic = .inc → ModifiesOperand i s (fun m => BitVec.ofNat 8 (m.toNat + 1)) fun m =>
      zn s.flags (BitVec.ofNat 8 (m.toNat + 1))) ∧
    (i.mnemonic = .dec → ModifiesOperand i s (fun m => BitVec.ofInt 8 (m.toNat - 1)) fun m =>
      zn s.flags (BitVec.ofInt 8 (m.toNat - 1)))

/-- Each completes in every state with its one register stepped by one modulo 256, Z and N of the result, and
everything else unchanged; each has its one opcode byte. (R116, R117, R118, R119) -/
def Obligations.IncAndDecOfIndexRegisters : Prop :=
  EncodingLine .inx [(.imp, 0xE8)] ∧
  EncodingLine .iny [(.imp, 0xC8)] ∧
  EncodingLine .dex [(.imp, 0xCA)] ∧
  EncodingLine .dey [(.imp, 0x88)] ∧
  ∀ s : State, let up (v : Byte) : Byte := BitVec.ofNat 8 (v.toNat + 1)
    let down (v : Byte) : Byte := BitVec.ofInt 8 (v.toNat - 1)
    exec .inx s = .next { s with x := up s.x, flags := zn s.flags (up s.x) } ∧
    exec .iny s = .next { s with y := up s.y, flags := zn s.flags (up s.y) } ∧
    exec .dex s = .next { s with x := down s.x, flags := zn s.flags (down s.x) } ∧
    exec .dey s = .next { s with y := down s.y, flags := zn s.flags (down s.y) }

/-- Each exists in its modes with the opcode bytes of its Encoding line; in every form it completes with its
register equal to m, Z = (m = 0), N = bit 7 of m, and everything else, memory included, unchanged. (R130, R131,
R132) -/
def Obligations.LoadsSetZeroAndNegative : Prop :=
  EncodingLine .lda [(.imm, 0xA9), (.zp, 0xA5), (.zpx, 0xB5), (.abs, 0xAD), (.abx, 0xBD), (.aby, 0xB9),
    (.izx, 0xA1), (.izy, 0xB1)] ∧
  EncodingLine .ldx [(.imm, 0xA2), (.zp, 0xA6), (.zpy, 0xB6), (.abs, 0xAE), (.aby, 0xBE)] ∧
  EncodingLine .ldy [(.imm, 0xA0), (.zp, 0xA4), (.zpx, 0xB4), (.abs, 0xAC), (.abx, 0xBC)] ∧
  ∀ (i : Instr) (s : State),
    (i.mnemonic = .lda → ReadsOperand i s fun m => { s with a := m, flags := zn s.flags m }) ∧
    (i.mnemonic = .ldx → ReadsOperand i s fun m => { s with x := m, flags := zn s.flags m }) ∧
    (i.mnemonic = .ldy → ReadsOperand i s fun m => { s with y := m, flags := zn s.flags m })

/-- Each exists in its modes with the opcode bytes of its Encoding line; in every form it completes; the byte at its
effective address reads as the register, every other byte as before, and no register and no flag changes. (R133,
R134, R135) -/
def Obligations.StoresWriteOneByte : Prop :=
  EncodingLine .sta [(.zp, 0x85), (.zpx, 0x95), (.abs, 0x8D), (.abx, 0x9D), (.aby, 0x99), (.izx, 0x81),
    (.izy, 0x91)] ∧
  EncodingLine .stx [(.zp, 0x86), (.zpy, 0x96), (.abs, 0x8E)] ∧
  EncodingLine .sty [(.zp, 0x84), (.zpx, 0x94), (.abs, 0x8C)] ∧
  ∀ (i : Instr) (s : State), let stores (v : Byte) : Prop :=
      (∃ ea t, effectiveAddress i.addressing s = some ea ∧ exec i s = .next t ∧ hostSnapshot t = hostSnapshot s ∧
        t.memRead ea = v ∧ ∀ a, a ≠ ea → t.memRead a = s.memRead a)
    (i.mnemonic = .sta → stores s.a) ∧ (i.mnemonic = .stx → stores s.x) ∧ (i.mnemonic = .sty → stores s.y)

/-- Each completes in every state with its destination equal to its source, Z and N of the value copied (none for
TXS), and everything else unchanged; each has its one opcode byte. (R136, R137, R138, R139, R140, R141) -/
def Obligations.TransfersCopyARegister : Prop :=
  EncodingLine .tax [(.imp, 0xAA)] ∧
  EncodingLine .tay [(.imp, 0xA8)] ∧
  EncodingLine .txa [(.imp, 0x8A)] ∧
  EncodingLine .tya [(.imp, 0x98)] ∧
  EncodingLine .tsx [(.imp, 0xBA)] ∧
  EncodingLine .txs [(.imp, 0x9A)] ∧
  ∀ s : State,
    exec .tax s = .next { s with x := s.a, flags := zn s.flags s.a } ∧
    exec .tay s = .next { s with y := s.a, flags := zn s.flags s.a } ∧
    exec .txa s = .next { s with a := s.x, flags := zn s.flags s.x } ∧
    exec .tya s = .next { s with a := s.y, flags := zn s.flags s.y } ∧
    exec .tsx s = .next { s with x := s.sp, flags := zn s.flags s.sp } ∧
    exec .txs s = .next { s with sp := s.x }

/-- Each of the eight branches has its one opcode byte and completes in every state: pc, which stands at the next
instruction, has the signed offset added modulo 65536 exactly when the branch's flag has the value it tests; nothing
else changes. (R150, R151, R152, R153, R154, R155, R156, R157, R158) -/
def Obligations.BranchesAddASignedOffset : Prop :=
  EncodingLine .bcc [(.rel, 0x90)] ∧
  EncodingLine .bcs [(.rel, 0xB0)] ∧
  EncodingLine .beq [(.rel, 0xF0)] ∧
  EncodingLine .bne [(.rel, 0xD0)] ∧
  EncodingLine .bmi [(.rel, 0x30)] ∧
  EncodingLine .bpl [(.rel, 0x10)] ∧
  EncodingLine .bvc [(.rel, 0x50)] ∧
  EncodingLine .bvs [(.rel, 0x70)] ∧
  ∀ (s : State) (d8 : Byte), ∀ p ∈ [
      (Instr.bcc d8, s.flags.c = false), (.bcs d8, s.flags.c = true),
      (.beq d8, s.flags.z = true), (.bne d8, s.flags.z = false),
      (.bmi d8, s.flags.n = true), (.bpl d8, s.flags.n = false),
      (.bvc d8, s.flags.v = false), (.bvs d8, s.flags.v = true)],
    (p.2 → exec p.1 s = .next { s with pc := BitVec.ofInt 16 (s.pc.toNat + d8.toInt) }) ∧
    (¬p.2 → exec p.1 s = .next s)

/-- JMP has the two opcode bytes of its Encoding lines. Absolute: pc becomes the operand. Indirect: pc becomes the
two bytes read at the pointer and at the address with the same high byte and the low byte plus one modulo 256.
Nothing else changes. (R159, R160) -/
def Obligations.JumpsSetPc : Prop :=
  EncodingLine .jmp [(.abs, 0x4C), (.ind, 0x6C)] ∧
  ∀ (s : State) (lo hi : Byte),
    exec (.jmpAbs (joinBytes hi lo)) s = .next { s with pc := BitVec.ofNat 16 (hi.toNat * 256 + lo.toNat) } ∧
    exec (.jmpInd (joinBytes hi lo)) s = .next { s with
      pc := BitVec.ofNat 16
        ((s.memRead (BitVec.ofNat 16 (hi.toNat * 256 + (lo.toNat + 1) % 256))).toNat * 256 +
          (s.memRead (BitVec.ofNat 16 (hi.toNat * 256 + lo.toNat))).toNat) }

/-- JSR has the opcode byte 0x20 and completes in every state with pc its operand and SP less by 2 modulo 256; the
byte at the old stack address is the high byte of pc - 1, where pc is the return address, the one below (wrapping in
the page) its low byte; no other byte, register or flag changes. (R161) -/
def Obligations.JsrPushesReturnAddressMinusOne : Prop :=
  EncodingLine .jsr [(.abs, 0x20)] ∧
  ∀ (s : State) (a16 : Addr), let ret := (s.pc.toNat + 65535) % 65536
    ∃ t, exec (.jsr a16) s = .next t ∧
      hostSnapshot t = { hostSnapshot s with pc := a16, sp := s.sp - 2 } ∧
      (t.memRead (BitVec.ofNat 16 (0x0100 + s.sp.toNat))).toNat = ret / 256 ∧
      (t.memRead (BitVec.ofNat 16 (0x0100 + (s.sp - 1).toNat))).toNat = ret % 256 ∧
      ∀ a, a ∉ storedAt (.jsr a16) s → t.memRead a = s.memRead a

/-- RTS has the opcode byte 0x60 and completes in every state with pc the pulled 16-bit value plus one modulo 65536
and SP greater by 2 modulo 256; memory, the other registers and the flags are unchanged. (R162) -/
def Obligations.RtsPullsAndIncrements : Prop :=
  EncodingLine .rts [(.imp, 0x60)] ∧
  ∀ s : State, let slot (k : Byte) : Nat := (s.memRead (BitVec.ofNat 16 (0x0100 + (s.sp + k).toNat))).toNat
    exec .rts s = .next { s with pc := BitVec.ofNat 16 (slot 2 * 256 + slot 1 + 1), sp := s.sp + 2 }

/-- After a JSR, in any later state with the SP that JSR left and the two bytes it pushed still in place, RTS
completes with pc the address of the instruction after the JSR and SP as it was before the JSR, and changes nothing
else. (R161, R162, R166) -/
def Obligations.JsrThenRtsReturns : Prop :=
  ∀ (s : State) (a16 : Addr), ∃ t, exec (.jsr a16) s = .next t ∧
    ∀ u : State, u.sp = t.sp → (∀ a ∈ storedAt (.jsr a16) s, u.memRead a = t.memRead a) →
      exec .rts u = .next { u with pc := s.pc, sp := s.sp }

/-- BRK has the opcode byte 0x00 and completes in every state, whatever I is: the three bytes pushed are the high
and low byte of pc (the address of the BRK plus one) and the status byte with the old flags and bits 5 and 4 set;
then I is 1 and pc is the little-endian vector; SP is less by 3; no other flag, register or byte changes. (R163,
R195) -/
def Obligations.BrkTakesTheSoftwareInterrupt : Prop :=
  EncodingLine .brk [(.imp, 0x00)] ∧
  ∀ s : State, let f := s.flags
    let slot (t : State) (k : Byte) : Nat := (t.memRead (BitVec.ofNat 16 (0x0100 + (s.sp - k).toNat))).toNat
    ∃ t, exec .brk s = .next t ∧
      hostSnapshot t = { hostSnapshot s with
        pc := BitVec.ofNat 16 ((s.memRead 0xFFFF).toNat * 256 + (s.memRead 0xFFFE).toNat)
        sp := s.sp - 3
        flags := { f with i := true } } ∧
      slot t 0 = s.pc.toNat / 256 ∧ slot t 1 = s.pc.toNat % 256 ∧
      slot t 2 = bitNat f.n * 128 + bitNat f.v * 64 + 32 + 16 + bitNat f.d * 8 + bitNat f.i * 4 + bitNat f.z * 2 +
        bitNat f.c ∧
      ∀ a, a ∉ storedAt .brk s → t.memRead a = s.memRead a

/-- RTI has the opcode byte 0x40 and completes in every state: the six flags are bits 7, 6, 3, 2, 1 and 0 of the
pulled byte, bits 5 and 4 ignored; pc is the 16-bit value pulled next; SP is greater by 3; memory and A, X, Y are
unchanged. (R164) -/
def Obligations.RtiRestoresFlagsAndPc : Prop :=
  EncodingLine .rti [(.imp, 0x40)] ∧
  ∀ s : State, let slot (k : Byte) : Nat := (s.memRead (BitVec.ofNat 16 (0x0100 + (s.sp + k).toNat))).toNat
    let bit (k : Nat) : Bool := decide (slot 1 / 2 ^ k % 2 = 1)
    exec .rti s = .next { s with
      flags := { n := bit 7, v := bit 6, d := bit 3, i := bit 2, z := bit 1, c := bit 0 }
      pc := BitVec.ofNat 16 (slot 3 * 256 + slot 2)
      sp := s.sp + 3 }

/-- After a BRK, in any later state with the SP that BRK left and the three bytes it pushed still in place, RTI
completes with pc, SP and all six flags as they were when the BRK executed (pc standing after the BRK opcode), and
changes nothing else. (R163, R164, R166, R196) -/
def Obligations.BrkThenRtiReturns : Prop :=
  ∀ s : State, ∃ t, exec .brk s = .next t ∧
    ∀ u : State, u.sp = t.sp → (∀ a ∈ storedAt .brk s, u.memRead a = t.memRead a) →
      exec .rti u = .next { u with pc := s.pc, sp := s.sp, flags := s.flags }

/-- For every state and byte: Push stores the byte at 0x0100 + SP and leaves SP - 1 modulo 256, Pull leaves SP + 1
modulo 256 and returns the byte at 0x0100 + that SP without writing memory; Push then Pull returns the byte and
restores SP. (R48, R49) -/
def Obligations.PushAndPullPrimitives : Prop :=
  ∀ (s : State) (v : Byte),
    s.push v = { s.memWrite (BitVec.ofNat 16 (0x0100 + s.sp.toNat)) v with sp := BitVec.ofNat 8 (s.sp.toNat + 255) } ∧
    s.pull = (s.memRead (BitVec.ofNat 16 (0x0100 + (s.sp.toNat + 1) % 256)),
      { s with sp := BitVec.ofNat 8 (s.sp.toNat + 1) }) ∧
    (s.push v).pull.1 = v ∧ (s.push v).pull.2.sp = s.sp

/-- PHA (0x48) and PHP (0x08) complete in every state: SP is less by 1, the byte at the old stack address is A, or
the status byte N V 1 1 D I Z C; no other byte, register or flag changes. (R170, R172) -/
def Obligations.PhaAndPhpPush : Prop :=
  EncodingLine .pha [(.imp, 0x48)] ∧
  EncodingLine .php [(.imp, 0x08)] ∧
  ∀ s : State, let f := s.flags
    let pushes (i : Instr) (v : Nat) : Prop :=
      (∃ t, exec i s = .next t ∧ hostSnapshot t = { hostSnapshot s with sp := s.sp - 1 } ∧
        (t.memRead (BitVec.ofNat 16 (0x0100 + s.sp.toNat))).toNat = v ∧
        ∀ a, a ∉ storedAt i s → t.memRead a = s.memRead a)
    pushes .pha s.a.toNat ∧
    pushes .php (bitNat f.n * 128 + bitNat f.v * 64 + 32 + 16 + bitNat f.d * 8 + bitNat f.i * 4 + bitNat f.z * 2 +
      bitNat f.c)

/-- PLA (0x68) and PLP (0x28) complete in every state with SP greater by 1: PLA puts the pulled byte in A and sets Z
and N from it; PLP sets the six flags from bits 7, 6, 3, 2, 1, 0 of it; nothing else changes. (R171, R173) -/
def Obligations.PlaAndPlpPull : Prop :=
  EncodingLine .pla [(.imp, 0x68)] ∧
  EncodingLine .plp [(.imp, 0x28)] ∧
  ∀ s : State, let v := s.memRead (BitVec.ofNat 16 (0x0100 + (s.sp + 1).toNat))
    let bit (k : Nat) : Bool := decide (v.toNat / 2 ^ k % 2 = 1)
    exec .pla s = .next { s with a := v, sp := s.sp + 1, flags := zn s.flags v } ∧
    exec .plp s = .next { s with
      sp := s.sp + 1
      flags := { n := bit 7, v := bit 6, d := bit 3, i := bit 2, z := bit 1, c := bit 0 } }

/-- Unpacking a byte packed from the flags gives the flags back, for every value of bits 5 and 4; PackP is N*128 +
V*64 + 32 + 16 + D*8 + I*4 + Z*2 + C; packing an unpacked byte gives the byte with bits 5 and 4 set. (R16, R17) -/
def Obligations.StatusByteRoundTrips : Prop :=
  (∀ (b5 b4 : Bool) (f : Flags), unpackP (packBits b5 b4 f) = f) ∧
  (∀ f : Flags, unpackP (packP f) = f) ∧
  (∀ f : Flags, (packP f).toNat =
    bitNat f.n * 128 + bitNat f.v * 64 + 32 + 16 + bitNat f.d * 8 + bitNat f.i * 4 + bitNat f.z * 2 + bitNat f.c) ∧
  (∀ b : Byte, let bit (k : Nat) : Bool := decide (b.toNat / 2 ^ k % 2 = 1)
    unpackP b = { n := bit 7, v := bit 6, d := bit 3, i := bit 2, z := bit 1, c := bit 0 }) ∧
  ∀ v : Byte, packP (unpackP v) = v ||| 0x30

/-- After a PHP, in any later state with the SP that PHP left and the byte it pushed still in place, PLP completes
with all six flags and SP as they were before the PHP, and changes nothing else. (R16, R17, R172, R173) -/
def Obligations.PhpThenPlpRestoresFlags : Prop :=
  ∀ s : State, ∃ t, exec .php s = .next t ∧
    ∀ u : State, u.sp = t.sp → (∀ a ∈ storedAt .php s, u.memRead a = t.memRead a) →
      exec .plp u = .next { u with flags := s.flags, sp := s.sp }

/-- Each completes in every state with its one flag forced and every other flag, every register and all of memory
unchanged; NOP leaves the state after its fetch as it is; each has its one opcode byte. (R174, R175, R176, R177,
R178, R179, R180, R181) -/
def Obligations.FlagInstructionsAndNop : Prop :=
  EncodingLine .clc [(.imp, 0x18)] ∧
  EncodingLine .sec [(.imp, 0x38)] ∧
  EncodingLine .cli [(.imp, 0x58)] ∧
  EncodingLine .sei [(.imp, 0x78)] ∧
  EncodingLine .clv [(.imp, 0xB8)] ∧
  EncodingLine .cld [(.imp, 0xD8)] ∧
  EncodingLine .sed [(.imp, 0xF8)] ∧
  EncodingLine .nop [(.imp, 0xEA)] ∧
  ∀ s : State, let f := s.flags
    exec .clc s = .next { s with flags := { f with c := false } } ∧
    exec .sec s = .next { s with flags := { f with c := true } } ∧
    exec .cli s = .next { s with flags := { f with i := false } } ∧
    exec .sei s = .next { s with flags := { f with i := true } } ∧
    exec .clv s = .next { s with flags := { f with v := false } } ∧
    exec .cld s = .next { s with flags := { f with d := false } } ∧
    exec .sed s = .next { s with flags := { f with d := true } } ∧
    exec .nop s = .next s

/-- Every instruction completes, and each of the six flags is afterwards: unchanged where R24 has a dash, 0 or 1
where it says so, bit 6 or 7 of the operand for BIT, its own bit of the pulled byte for PLP and RTI. (What a star
computes is in the statement about the instruction.) (R24, R15) -/
def Obligations.FlagsWrittenByEachInstruction : Prop :=
  ∀ (i : Instr) (s : State), ∃ t, exec i s = .next t ∧ ∀ fl : Flag, ((flagRow i.mnemonic).get fl).Holds fl i s t

/-- Every instruction completes, and A, X, Y and SP are unchanged unless R23 lists the instruction as writing them;
pc, which stands past the instruction, is unchanged unless the instruction is a branch, JMP, JSR, RTS, BRK or RTI.
(R23, R11, R13) -/
def Obligations.RegistersWrittenByEachInstruction : Prop :=
  ∀ (i : Instr) (s : State), ∃ t, exec i s = .next t ∧
    (writesA i = false → t.a = s.a) ∧ (writesX i = false → t.x = s.x) ∧ (writesY i = false → t.y = s.y) ∧
    (writesSP i = false → t.sp = s.sp) ∧ (writesPC i = false → t.pc = s.pc)

/-- Every instruction completes, and every byte outside the addresses it stores to reads as before: the effective
address for STA, STX, STY and the read-modify-write forms, the stack slots for PHA, PHP, JSR and BRK, none for every
other form. (R70, R84, R48, R38, R47) -/
def Obligations.MemoryWrittenByEachInstruction : Prop :=
  ∀ (i : Instr) (s : State), ∃ t, exec i s = .next t ∧ ∀ a : Addr, a ∉ storedAt i s → t.memRead a = s.memRead a

/-- Whatever SP is, each of the four completes, and every byte of memory that reads otherwise afterwards lies in
0x0100 to 0x01FF; the addresses it stores to lie there too, are distinct, and are as many as SP is less by, modulo
256: the stack wraps silently within the page. (R12, R34, R39, R48) -/
def Obligations.PushesStayInTheStackPage : Prop :=
  ∀ (i : Instr) (s : State), i.mnemonic ∈ [Mnemonic.pha, .php, .jsr, .brk] →
    (∃ t, exec i s = .next t ∧
      (∀ a : Addr, t.memRead a ≠ s.memRead a → 0x0100 ≤ a.toNat ∧ a.toNat ≤ 0x01FF) ∧
      t.sp = s.sp - BitVec.ofNat 8 (storedAt i s).length) ∧
    (storedAt i s).Nodup ∧ ∀ a ∈ storedAt i s, 0x0100 ≤ a.toNat ∧ a.toNat ≤ 0x01FF

/-- Two states with canonical memories that have the same register snapshot and in which read_memory returns the
same byte at every address are equal: nothing in the state is hidden from the host. The canonical form is the
model's (log entry 4). (R10, R20, R199) -/
def Obligations.SnapshotShowsTheRegisterFile : Prop :=
  ∀ s t : State, s.Inv → t.Inv → hostSnapshot s = hostSnapshot t →
    (∀ a : Addr, hostReadMemory a s = hostReadMemory a t) → s = t

/-- A run of n calls makes all n under the convention of a fixed count; under the first-fault convention it ends
just after the first unmapped byte it fetches, with Ok for every call before and the fault last; under the
unchanged-state convention it ends just after the first call that leaves the whole state as it was. If nothing ends
it within n calls, it has made n and says that it is not ended. That a run has a bound is the model's (log entry 8).
(R191, R192, R213, R214) -/
def Obligations.RunEndsByItsConvention : Prop :=
  ∀ (n : Nat) (s : State), let after (k : Nat) : State := hostSteps k s
    let answer (k : Nat) : CallResult := (hostStep (after k)).1
    let unmapped (k : Nat) : Prop := (after k).memRead (after k).pc ∈ illegalBytes
    hostRun .fixedCount n s = { answers := (List.range n).map answer, last := after n, ended := true } ∧
    (∀ k < n, unmapped k → (∀ j < k, ¬unmapped j) →
      hostRun .firstFault n s =
        { answers := List.replicate k .ok ++ [.fault ((after k).memRead (after k).pc) (after k).pc]
          last := { after k with pc := (after k).pc + 1 }
          ended := true }) ∧
    ((∀ k < n, ¬unmapped k) →
      hostRun .firstFault n s = { answers := List.replicate n .ok, last := after n, ended := false }) ∧
    (∀ k < n, after (k + 1) = after k → (∀ j < k, after (j + 1) ≠ after j) →
      hostRun .unchanged n s =
        { answers := (List.range (k + 1)).map answer, last := after k, ended := true }) ∧
    ((∀ k < n, after (k + 1) ≠ after k) →
      hostRun .unchanged n s = { answers := (List.range n).map answer, last := after n, ended := false })
end

