-- ==== Sys2Proof/Laws/Decode.lean ====
section
/-! SUPPORT. The laws of the opcode lookup: an entry found is an entry of the table, and no byte has two entries. -/

namespace Sys2Proof

theorem findForm_mem {b : Byte} {f : Form} {rows : List (Byte × Form)} (h : findForm b rows = some f) : (b, f) ∈ rows := by
  induction rows with
  | nil => simp [findForm] at h
  | cons p rest ih =>
    obtain ⟨k, g⟩ := p
    simp only [findForm] at h
    split at h
    · rename_i hb
      simp only [Option.some.injEq] at h
      simp [hb, h]
    · exact List.mem_cons_of_mem _ (ih h)

theorem findForm_eq_none {b : Byte} {rows : List (Byte × Form)} : findForm b rows = none ↔ b ∉ rows.map Prod.fst := by
  induction rows with
  | nil => simp [findForm]
  | cons p rest ih =>
    obtain ⟨k, g⟩ := p
    simp only [findForm, List.map_cons, List.mem_cons, not_or]
    split
    · rename_i hb
      simp [hb]
    · rename_i hb
      simp [hb, ih]

theorem findForm_of_mem {b : Byte} {f : Form} {rows : List (Byte × Form)} (hn : (rows.map Prod.fst).Nodup)
    (h : (b, f) ∈ rows) : findForm b rows = some f := by
  induction rows with
  | nil => simp at h
  | cons p rest ih =>
    obtain ⟨k, g⟩ := p
    simp only [List.map_cons, List.nodup_cons] at hn
    rcases List.mem_cons.mp h with heq | hmem
    · simp only [Prod.mk.injEq] at heq
      simp [findForm, heq.1, heq.2]
    · have hne : b ≠ k := fun hbk => hn.1 (hbk ▸ List.mem_map_of_mem (f := Prod.fst) hmem)
      simp [findForm, hne, ih hn.2 hmem]

/-- The count of mapped opcode bytes (R4, R54). -/
theorem opcodeTable_length : opcodeTable.length = 151 := by decide +kernel

/-- No opcode byte has two entries (R54). -/
theorem opcodeTable_nodup : (opcodeTable.map Prod.fst).Nodup := by decide +kernel

end Sys2Proof
end

