-- ==== Sys2Proof/Laws/Encoding.lean ====
section
/-! SUPPORT. One instruction per opcode stands for all its operands: a fact about mnemonics, modes and opcode bytes is checked on
the 151 samples of the opcode table. -/

namespace Sys2Proof.Machine

/-- An instruction of each entry of the opcode table, with operand zero. -/
def samples : List Instr :=
  opcodeTable.map fun p =>
    match p.2 with
    | .f1 i => i
    | .f2 mk => mk 0
    | .f3 mk => mk 0

/-- The cell of the opcode table that an instruction is: mnemonic, mode and opcode byte. -/
def cellOf (i : Instr) : Mnemonic × Mode × Byte := (i.mnemonic, i.addressing.mode, i.opcode)

theorem cellOf_mem (i : Instr) : cellOf i ∈ samples.map cellOf := by
  cases i <;> (simp only [cellOf, Instr.mnemonic, Instr.addressing, Addressing.mode, Instr.opcode]; decide +kernel)

theorem exists_sample (i : Instr) :
    ∃ j ∈ samples, j.mnemonic = i.mnemonic ∧ j.addressing.mode = i.addressing.mode ∧ j.opcode = i.opcode := by
  obtain ⟨j, hj, he⟩ := List.mem_map.mp (cellOf_mem i)
  simp only [cellOf, Prod.mk.injEq] at he
  exact ⟨j, hj, he⟩

/-- An "Encoding" line holds when the samples agree with it. -/
theorem encodingLine_of_samples {mn : Mnemonic} {cells : List (Mode × Byte)}
    (h : (∀ j ∈ samples, j.mnemonic = mn → (j.addressing.mode, j.opcode) ∈ cells) ∧
      ∀ c ∈ cells, ∃ j ∈ samples, j.mnemonic = mn ∧ j.addressing.mode = c.1 ∧ j.opcode = c.2) :
    EncodingLine mn cells := by
  constructor
  · intro i hi
    obtain ⟨j, hj, hm, ha, ho⟩ := exists_sample i
    rw [← ha, ← ho]
    exact h.1 j hj (hm.trans hi)
  · intro c hc
    obtain ⟨j, -, hj⟩ := h.2 c hc
    exact ⟨j, hj⟩

end Sys2Proof.Machine
end

