-- ==== Sys2Proof/Laws/Memory.lean ====
section
/-! SUPPORT. The laws of memory: a read after a write, and the canonical form is kept by every write. -/

namespace Sys2Proof.Machine

@[simp] theorem Memory.read_zeroed (k : Nat) : Memory.read Memory.zeroed k = 0 := rfl

theorem Memory.read_cons (k' : Nat) (v : Byte) (m : Memory) (k : Nat) :
    Memory.read ((k', v) :: m) k = if k = k' then v else Memory.read m k := rfl

theorem Memory.wfFrom_cons {lo k : Nat} {v : Byte} {m : Memory} :
    Memory.wfFrom lo ((k, v) :: m) = true ↔
      lo ≤ k ∧ k < Memory.size ∧ v ≠ Memory.unlisted ∧ Memory.wfFrom (k + 1) m = true := by
  simp [Memory.wfFrom, and_assoc]

/-- An address that is not listed reads as the unlisted byte. -/
theorem Memory.read_of_forall_ne {m : Memory} {k : Nat} (h : ∀ c ∈ m, c.1 ≠ k) : Memory.read m k = Memory.unlisted := by
  induction m with
  | nil => rfl
  | cons p rest ih =>
    rw [Memory.read_cons, if_neg (h p (by simp)).symm]
    exact ih fun c hc => h c (by simp [hc])

theorem Memory.erase_forall_ne (m : Memory) (k : Nat) : ∀ c ∈ Memory.erase m k, c.1 ≠ k := by
  intro c hc
  simpa using (List.mem_filter.mp hc).2

theorem Memory.read_erase_ne (m : Memory) {k j : Nat} (hne : j ≠ k) :
    Memory.read (Memory.erase m k) j = Memory.read m j := by
  unfold Memory.erase
  induction m with
  | nil => rfl
  | cons p rest ih =>
    obtain ⟨k', v'⟩ := p
    by_cases hk : k' = k
    · simp [hk, Memory.read_cons, hne, ih]
    · simp [hk, Memory.read_cons, ih]

theorem Memory.read_insert_same {m : Memory} {k : Nat} (v : Byte) (h : ∀ c ∈ m, c.1 ≠ k) :
    Memory.read (Memory.insert m k v) k = v := by
  induction m with
  | nil => simp [Memory.insert, Memory.read_cons]
  | cons p rest ih =>
    obtain ⟨k', v'⟩ := p
    simp only [Memory.insert]
    split
    · simp [Memory.read_cons]
    · rw [Memory.read_cons, if_neg (h (k', v') (by simp)).symm]
      exact ih fun c hc => h c (by simp [hc])

theorem Memory.read_insert_ne (m : Memory) {k j : Nat} (v : Byte) (hne : j ≠ k) :
    Memory.read (Memory.insert m k v) j = Memory.read m j := by
  induction m with
  | nil => simp [Memory.insert, Memory.read_cons, hne]
  | cons p rest ih =>
    obtain ⟨k', v'⟩ := p
    simp only [Memory.insert]
    split
    · simp [Memory.read_cons, hne]
    · simp only [Memory.read_cons, ih]

/-- A read after a write (R31, R32), of any memory, canonical or not. -/
theorem Memory.read_write (m : Memory) (k j : Nat) (v : Byte) :
    Memory.read (Memory.write m k v) j = if j = k then v else Memory.read m j := by
  unfold Memory.write
  by_cases hj : j = k
  · subst hj
    rw [if_pos rfl]
    split
    · rename_i hv
      rw [hv]
      exact Memory.read_of_forall_ne (Memory.erase_forall_ne m j)
    · exact Memory.read_insert_same v (Memory.erase_forall_ne m j)
  · rw [if_neg hj]
    split
    · exact Memory.read_erase_ne m hj
    · rw [Memory.read_insert_ne _ v hj, Memory.read_erase_ne m hj]

/-- A list canonical from `lo'` on is canonical from any lower bound on. -/
theorem Memory.wfFrom_mono {lo lo' : Nat} {m : Memory} (h : Memory.wfFrom lo' m = true) (hle : lo ≤ lo') :
    Memory.wfFrom lo m = true := by
  cases m with
  | nil => rfl
  | cons p rest =>
    rw [Memory.wfFrom_cons] at h ⊢
    exact ⟨by omega, h.2⟩

theorem Memory.wfFrom_erase {lo : Nat} {m : Memory} (h : Memory.wfFrom lo m = true) (k : Nat) :
    Memory.wfFrom lo (Memory.erase m k) = true := by
  unfold Memory.erase
  induction m generalizing lo with
  | nil => rfl
  | cons p rest ih =>
    obtain ⟨k', v'⟩ := p
    rw [Memory.wfFrom_cons] at h
    by_cases hk : k' = k
    · simpa [hk] using Memory.wfFrom_mono (ih h.2.2.2) (by omega)
    · have : List.filter (fun c : Host.Cell => c.1 != k) ((k', v') :: rest) =
          (k', v') :: List.filter (fun c : Host.Cell => c.1 != k) rest := by simp [hk]
      rw [this, Memory.wfFrom_cons]
      exact ⟨h.1, h.2.1, h.2.2.1, ih h.2.2.2⟩

theorem Memory.wfFrom_insert {lo k : Nat} {v : Byte} {m : Memory} (h : Memory.wfFrom lo m = true) (hlo : lo ≤ k)
    (hk : k < Memory.size) (hv : v ≠ Memory.unlisted) (hne : ∀ c ∈ m, c.1 ≠ k) :
    Memory.wfFrom lo (Memory.insert m k v) = true := by
  induction m generalizing lo with
  | nil => exact Memory.wfFrom_cons.mpr ⟨hlo, hk, hv, rfl⟩
  | cons p rest ih =>
    obtain ⟨k', v'⟩ := p
    have hp := Memory.wfFrom_cons.mp h
    have hk' : k' ≠ k := hne (k', v') (by simp)
    simp only [Memory.insert]
    split
    · exact Memory.wfFrom_cons.mpr ⟨hlo, hk, hv, Memory.wfFrom_cons.mpr ⟨by omega, hp.2⟩⟩
    · exact Memory.wfFrom_cons.mpr
        ⟨hp.1, hp.2.1, hp.2.2.1, ih hp.2.2.2 (by omega) fun c hc => hne c (by simp [hc])⟩

/-- The canonical form is kept by every write in the address space. -/
theorem Memory.wf_write {k : Nat} {m : Memory} (v : Byte) (h : Memory.wf m = true) (hk : k < Memory.size) :
    Memory.wf (Memory.write m k v) = true := by
  unfold Memory.write
  split
  · exact Memory.wfFrom_erase h k
  · exact Memory.wfFrom_insert (Memory.wfFrom_erase h k) (Nat.zero_le _) hk ‹_› (Memory.erase_forall_ne m k)

@[simp] theorem Memory.wf_zeroed : Memory.wf Memory.zeroed = true := rfl

/-- Every listed address of a list in the form `wfFrom lo` lies at or above `lo`. -/
theorem Memory.read_of_lt {lo : Nat} {m : Memory} (h : Memory.wfFrom lo m = true) {k : Nat} (hk : k < lo) :
    Memory.read m k = Memory.unlisted := by
  induction m generalizing lo with
  | nil => rfl
  | cons p rest ih =>
    obtain ⟨k', v⟩ := p
    rw [Memory.wfFrom_cons] at h
    rw [Memory.read_cons, if_neg (by omega)]
    exact ih h.2.2.2 (by omega)

end Sys2Proof.Machine
end

