-- ==== Sys2Proof/Laws/State.lean ====
section
/-! SUPPORT. The small lemmas of the named operations: what each does to each field of the state, true by unfolding once. -/

namespace Sys2Proof.Machine

/-- A read sees `mem` only: a state with another register or flag reads alike. -/
@[simp] theorem State.memRead_frame (s : State) (pc : Addr) (sp a x y : Byte) (flags : Flags) (addr : Addr) :
    State.memRead ⟨pc, sp, a, x, y, flags, s.mem⟩ addr = s.memRead addr := rfl

theorem State.mem_read (s : State) (addr : Addr) : s.mem.read addr.toNat = s.memRead addr := rfl

@[simp] theorem State.memWrite_pc (s : State) (addr : Addr) (v : Byte) : (s.memWrite addr v).pc = s.pc := rfl
@[simp] theorem State.memWrite_sp (s : State) (addr : Addr) (v : Byte) : (s.memWrite addr v).sp = s.sp := rfl
@[simp] theorem State.memWrite_a (s : State) (addr : Addr) (v : Byte) : (s.memWrite addr v).a = s.a := rfl
@[simp] theorem State.memWrite_x (s : State) (addr : Addr) (v : Byte) : (s.memWrite addr v).x = s.x := rfl
@[simp] theorem State.memWrite_y (s : State) (addr : Addr) (v : Byte) : (s.memWrite addr v).y = s.y := rfl
@[simp] theorem State.memWrite_flags (s : State) (addr : Addr) (v : Byte) : (s.memWrite addr v).flags = s.flags := rfl
@[simp] theorem State.memWrite_mem (s : State) (addr : Addr) (v : Byte) :
    (s.memWrite addr v).mem = s.mem.write addr.toNat v := rfl

@[simp] theorem State.fetch_fst (s : State) : s.fetch.1 = s.memRead s.pc := rfl
@[simp] theorem State.fetch_pc (s : State) : (s.fetch.2).pc = s.pc + 1 := rfl
@[simp] theorem State.fetch_sp (s : State) : (s.fetch.2).sp = s.sp := rfl
@[simp] theorem State.fetch_a (s : State) : (s.fetch.2).a = s.a := rfl
@[simp] theorem State.fetch_x (s : State) : (s.fetch.2).x = s.x := rfl
@[simp] theorem State.fetch_y (s : State) : (s.fetch.2).y = s.y := rfl
@[simp] theorem State.fetch_flags (s : State) : (s.fetch.2).flags = s.flags := rfl
@[simp] theorem State.fetch_mem (s : State) : (s.fetch.2).mem = s.mem := rfl

@[simp] theorem State.fetch_memRead (s : State) (addr : Addr) : s.fetch.2.memRead addr = s.memRead addr := rfl

@[simp] theorem State.push_pc (s : State) (v : Byte) : (s.push v).pc = s.pc := rfl
@[simp] theorem State.push_sp (s : State) (v : Byte) : (s.push v).sp = s.sp - 1 := rfl
@[simp] theorem State.push_a (s : State) (v : Byte) : (s.push v).a = s.a := rfl
@[simp] theorem State.push_x (s : State) (v : Byte) : (s.push v).x = s.x := rfl
@[simp] theorem State.push_y (s : State) (v : Byte) : (s.push v).y = s.y := rfl
@[simp] theorem State.push_flags (s : State) (v : Byte) : (s.push v).flags = s.flags := rfl
@[simp] theorem State.push_mem (s : State) (v : Byte) : (s.push v).mem = s.mem.write (stackAddr s.sp).toNat v := rfl

@[simp] theorem State.pull_fst (s : State) : s.pull.1 = s.memRead (stackAddr (s.sp + 1)) := rfl
@[simp] theorem State.pull_pc (s : State) : (s.pull.2).pc = s.pc := rfl
@[simp] theorem State.pull_sp (s : State) : (s.pull.2).sp = s.sp + 1 := rfl
@[simp] theorem State.pull_a (s : State) : (s.pull.2).a = s.a := rfl
@[simp] theorem State.pull_x (s : State) : (s.pull.2).x = s.x := rfl
@[simp] theorem State.pull_y (s : State) : (s.pull.2).y = s.y := rfl
@[simp] theorem State.pull_flags (s : State) : (s.pull.2).flags = s.flags := rfl
@[simp] theorem State.pull_mem (s : State) : (s.pull.2).mem = s.mem := rfl

@[simp] theorem State.pull_memRead (s : State) (addr : Addr) : s.pull.2.memRead addr = s.memRead addr := rfl

@[simp] theorem State.push16_eq (s : State) (v : Addr) : s.push16 v = (s.push (highByte v)).push (lowByte v) := rfl

@[simp] theorem State.pull16_fst (s : State) :
    s.pull16.1 = joinBytes (s.memRead (stackAddr (s.sp + 1 + 1))) (s.memRead (stackAddr (s.sp + 1))) := rfl
@[simp] theorem State.pull16_pc (s : State) : (s.pull16.2).pc = s.pc := rfl
@[simp] theorem State.pull16_sp (s : State) : (s.pull16.2).sp = s.sp + 1 + 1 := rfl
@[simp] theorem State.pull16_a (s : State) : (s.pull16.2).a = s.a := rfl
@[simp] theorem State.pull16_x (s : State) : (s.pull16.2).x = s.x := rfl
@[simp] theorem State.pull16_y (s : State) : (s.pull16.2).y = s.y := rfl
@[simp] theorem State.pull16_flags (s : State) : (s.pull16.2).flags = s.flags := rfl
@[simp] theorem State.pull16_mem (s : State) : (s.pull16.2).mem = s.mem := rfl

@[simp] theorem State.accumulate_pc (s : State) (op : Byte → Byte → Flags → Byte × Flags) (m : Byte) :
    (s.accumulate op m).pc = s.pc := rfl
@[simp] theorem State.accumulate_sp (s : State) (op : Byte → Byte → Flags → Byte × Flags) (m : Byte) :
    (s.accumulate op m).sp = s.sp := rfl
@[simp] theorem State.accumulate_a (s : State) (op : Byte → Byte → Flags → Byte × Flags) (m : Byte) :
    (s.accumulate op m).a = (op s.a m s.flags).1 := rfl
@[simp] theorem State.accumulate_x (s : State) (op : Byte → Byte → Flags → Byte × Flags) (m : Byte) :
    (s.accumulate op m).x = s.x := rfl
@[simp] theorem State.accumulate_y (s : State) (op : Byte → Byte → Flags → Byte × Flags) (m : Byte) :
    (s.accumulate op m).y = s.y := rfl
@[simp] theorem State.accumulate_flags (s : State) (op : Byte → Byte → Flags → Byte × Flags) (m : Byte) :
    (s.accumulate op m).flags = (op s.a m s.flags).2 := rfl
@[simp] theorem State.accumulate_mem (s : State) (op : Byte → Byte → Flags → Byte × Flags) (m : Byte) :
    (s.accumulate op m).mem = s.mem := rfl

@[simp] theorem State.modifyMem_pc (s : State) (op : Byte → Flags → Byte × Flags) (ea : Addr) :
    (s.modifyMem op ea).pc = s.pc := rfl
@[simp] theorem State.modifyMem_sp (s : State) (op : Byte → Flags → Byte × Flags) (ea : Addr) :
    (s.modifyMem op ea).sp = s.sp := rfl
@[simp] theorem State.modifyMem_a (s : State) (op : Byte → Flags → Byte × Flags) (ea : Addr) :
    (s.modifyMem op ea).a = s.a := rfl
@[simp] theorem State.modifyMem_x (s : State) (op : Byte → Flags → Byte × Flags) (ea : Addr) :
    (s.modifyMem op ea).x = s.x := rfl
@[simp] theorem State.modifyMem_y (s : State) (op : Byte → Flags → Byte × Flags) (ea : Addr) :
    (s.modifyMem op ea).y = s.y := rfl
@[simp] theorem State.modifyMem_flags (s : State) (op : Byte → Flags → Byte × Flags) (ea : Addr) :
    (s.modifyMem op ea).flags = (op (s.memRead ea) s.flags).2 := rfl
@[simp] theorem State.modifyMem_mem (s : State) (op : Byte → Flags → Byte × Flags) (ea : Addr) :
    (s.modifyMem op ea).mem = s.mem.write ea.toNat (op (s.memRead ea) s.flags).1 := rfl

@[simp] theorem State.modifyA_pc (s : State) (op : Byte → Flags → Byte × Flags) : (s.modifyA op).pc = s.pc := rfl
@[simp] theorem State.modifyA_sp (s : State) (op : Byte → Flags → Byte × Flags) : (s.modifyA op).sp = s.sp := rfl
@[simp] theorem State.modifyA_a (s : State) (op : Byte → Flags → Byte × Flags) :
    (s.modifyA op).a = (op s.a s.flags).1 := rfl
@[simp] theorem State.modifyA_x (s : State) (op : Byte → Flags → Byte × Flags) : (s.modifyA op).x = s.x := rfl
@[simp] theorem State.modifyA_y (s : State) (op : Byte → Flags → Byte × Flags) : (s.modifyA op).y = s.y := rfl
@[simp] theorem State.modifyA_flags (s : State) (op : Byte → Flags → Byte × Flags) :
    (s.modifyA op).flags = (op s.a s.flags).2 := rfl
@[simp] theorem State.modifyA_mem (s : State) (op : Byte → Flags → Byte × Flags) : (s.modifyA op).mem = s.mem := rfl

@[simp] theorem State.modifyX_pc (s : State) (op : Byte → Flags → Byte × Flags) : (s.modifyX op).pc = s.pc := rfl
@[simp] theorem State.modifyX_sp (s : State) (op : Byte → Flags → Byte × Flags) : (s.modifyX op).sp = s.sp := rfl
@[simp] theorem State.modifyX_a (s : State) (op : Byte → Flags → Byte × Flags) : (s.modifyX op).a = s.a := rfl
@[simp] theorem State.modifyX_x (s : State) (op : Byte → Flags → Byte × Flags) :
    (s.modifyX op).x = (op s.x s.flags).1 := rfl
@[simp] theorem State.modifyX_y (s : State) (op : Byte → Flags → Byte × Flags) : (s.modifyX op).y = s.y := rfl
@[simp] theorem State.modifyX_flags (s : State) (op : Byte → Flags → Byte × Flags) :
    (s.modifyX op).flags = (op s.x s.flags).2 := rfl
@[simp] theorem State.modifyX_mem (s : State) (op : Byte → Flags → Byte × Flags) : (s.modifyX op).mem = s.mem := rfl

@[simp] theorem State.modifyY_pc (s : State) (op : Byte → Flags → Byte × Flags) : (s.modifyY op).pc = s.pc := rfl
@[simp] theorem State.modifyY_sp (s : State) (op : Byte → Flags → Byte × Flags) : (s.modifyY op).sp = s.sp := rfl
@[simp] theorem State.modifyY_a (s : State) (op : Byte → Flags → Byte × Flags) : (s.modifyY op).a = s.a := rfl
@[simp] theorem State.modifyY_x (s : State) (op : Byte → Flags → Byte × Flags) : (s.modifyY op).x = s.x := rfl
@[simp] theorem State.modifyY_y (s : State) (op : Byte → Flags → Byte × Flags) :
    (s.modifyY op).y = (op s.y s.flags).1 := rfl
@[simp] theorem State.modifyY_flags (s : State) (op : Byte → Flags → Byte × Flags) :
    (s.modifyY op).flags = (op s.y s.flags).2 := rfl
@[simp] theorem State.modifyY_mem (s : State) (op : Byte → Flags → Byte × Flags) : (s.modifyY op).mem = s.mem := rfl

@[simp] theorem State.loadA_pc (s : State) (v : Byte) : (s.loadA v).pc = s.pc := rfl
@[simp] theorem State.loadA_sp (s : State) (v : Byte) : (s.loadA v).sp = s.sp := rfl
@[simp] theorem State.loadA_a (s : State) (v : Byte) : (s.loadA v).a = v := rfl
@[simp] theorem State.loadA_x (s : State) (v : Byte) : (s.loadA v).x = s.x := rfl
@[simp] theorem State.loadA_y (s : State) (v : Byte) : (s.loadA v).y = s.y := rfl
@[simp] theorem State.loadA_flags (s : State) (v : Byte) : (s.loadA v).flags = s.flags.setZN v := rfl
@[simp] theorem State.loadA_mem (s : State) (v : Byte) : (s.loadA v).mem = s.mem := rfl

@[simp] theorem State.loadX_pc (s : State) (v : Byte) : (s.loadX v).pc = s.pc := rfl
@[simp] theorem State.loadX_sp (s : State) (v : Byte) : (s.loadX v).sp = s.sp := rfl
@[simp] theorem State.loadX_a (s : State) (v : Byte) : (s.loadX v).a = s.a := rfl
@[simp] theorem State.loadX_x (s : State) (v : Byte) : (s.loadX v).x = v := rfl
@[simp] theorem State.loadX_y (s : State) (v : Byte) : (s.loadX v).y = s.y := rfl
@[simp] theorem State.loadX_flags (s : State) (v : Byte) : (s.loadX v).flags = s.flags.setZN v := rfl
@[simp] theorem State.loadX_mem (s : State) (v : Byte) : (s.loadX v).mem = s.mem := rfl

@[simp] theorem State.loadY_pc (s : State) (v : Byte) : (s.loadY v).pc = s.pc := rfl
@[simp] theorem State.loadY_sp (s : State) (v : Byte) : (s.loadY v).sp = s.sp := rfl
@[simp] theorem State.loadY_a (s : State) (v : Byte) : (s.loadY v).a = s.a := rfl
@[simp] theorem State.loadY_x (s : State) (v : Byte) : (s.loadY v).x = s.x := rfl
@[simp] theorem State.loadY_y (s : State) (v : Byte) : (s.loadY v).y = v := rfl
@[simp] theorem State.loadY_flags (s : State) (v : Byte) : (s.loadY v).flags = s.flags.setZN v := rfl
@[simp] theorem State.loadY_mem (s : State) (v : Byte) : (s.loadY v).mem = s.mem := rfl

@[simp] theorem Flags.setZN_c (f : Flags) (v : Byte) : (f.setZN v).c = f.c := rfl
@[simp] theorem Flags.setZN_i (f : Flags) (v : Byte) : (f.setZN v).i = f.i := rfl
@[simp] theorem Flags.setZN_d (f : Flags) (v : Byte) : (f.setZN v).d = f.d := rfl
@[simp] theorem Flags.setZN_v (f : Flags) (v : Byte) : (f.setZN v).v = f.v := rfl
@[simp] theorem Flags.setZN_z (f : Flags) (v : Byte) : (f.setZN v).z = (v == 0) := rfl
@[simp] theorem Flags.setZN_n (f : Flags) (v : Byte) : (f.setZN v).n = v.getLsbD 7 := rfl

end Sys2Proof.Machine
end

