-- ==== Sys2Proof/Laws/Ops.lean ====
section
/-! SUPPORT. What the shared operations do, said once: reads after writes, pushes and pulls, the interrupt entry and return,
and the flag computations as arithmetic on numbers. -/

namespace Sys2Proof.Machine

/-- A byte read after a byte written (R31, R32, R42). -/
theorem State.memRead_memWrite (s : State) (a b : Addr) (v : Byte) :
    (s.memWrite a v).memRead b = if b = a then v else s.memRead b := by
  simp only [State.memRead, State.memWrite_mem, Memory.read_write]
  exact if_congr BitVec.toNat_inj rfl rfl

theorem State.mem_write_inv {s : State} (h : s.mem.wf = true) (a : Addr) (v : Byte) : (s.memWrite a v).mem.wf = true :=
  Memory.wf_write v h a.isLt

/-- The stack page: the address denoted by `sp` is 256 + `sp` (R12). -/
theorem stackAddr_toNat (sp : Byte) : (stackAddr sp).toNat = 256 + sp.toNat := by
  have := sp.isLt
  rw [stackAddr, BitVec.toNat_add, zext16_toNat, show Config.stackPage.toNat = 256 from rfl]
  omega

@[simp] theorem stackAddr_inj {p q : Byte} : stackAddr p = stackAddr q ↔ p = q := by
  rw [← BitVec.toNat_inj, ← BitVec.toNat_inj, stackAddr_toNat, stackAddr_toNat]
  omega

/-- A byte read after a push (R48). -/
theorem State.memRead_push (s : State) (v : Byte) (b : Addr) :
    (s.push v).memRead b = if b = stackAddr s.sp then v else s.memRead b :=
  State.memRead_memWrite s (stackAddr s.sp) b v

/-- A vector address lies outside the stack page (R39). -/
theorem vector_ne_stackAddr (a : Addr) (h : 0x0200 ≤ a.toNat) (sp : Byte) : a ≠ stackAddr sp := by
  intro he
  have := sp.isLt
  rw [he, stackAddr_toNat] at h
  omega

/-- The interrupt entry, field by field (R163). -/
theorem State.enterInterrupt_eq (s : State) :
    s.enterInterrupt =
      { (s.push16 s.pc).push (packP s.flags) with
        flags := { s.flags with i := true }
        pc := s.read16 Config.brkVectorLow Config.brkVectorHigh } := by
  have h (a : Addr) (ha : 0x0200 ≤ a.toNat) : ((s.push16 s.pc).push (packP s.flags)).memRead a = s.memRead a := by
    simp only [State.push16_eq, State.memRead_push, vector_ne_stackAddr a ha, if_false]
  simp only [State.enterInterrupt, State.read16, h Config.brkVectorHigh (by decide), h Config.brkVectorLow (by decide)]
  rfl

/-- The interrupt return, field by field (R164). -/
theorem State.returnFromInterrupt_eq (s : State) :
    s.returnFromInterrupt =
      { s with
        flags := unpackP (s.memRead (stackAddr (s.sp + 1)))
        pc := joinBytes (s.memRead (stackAddr (s.sp + 1 + 1 + 1))) (s.memRead (stackAddr (s.sp + 1 + 1)))
        sp := s.sp + 1 + 1 + 1 } := rfl

/-- `{hi, lo}` read from two addresses, as a number (R37). -/
theorem State.read16_toNat (s : State) (lo hi : Addr) :
    (s.read16 lo hi).toNat = (s.memRead hi).toNat * 256 + (s.memRead lo).toNat := joinBytes_toNat _ _

/-- Bit 7 of a byte, by comparison. -/
theorem bit7_eq (b : Byte) : b.getLsbD 7 = decide (128 ≤ b.toNat) := by
  revert b
  decide

/-- The carry flag as a number. -/
theorem ofBool_toNat_eq (c : Bool) : (BitVec.ofBool c).toNat = c.toNat := by cases c <;> rfl

/-- The 9-bit sum never wraps (R99). -/
theorem sum9_toNat (a m : Byte) (c : Bool) : (sum9 a m c).toNat = a.toNat + m.toNat + c.toNat := by
  have ha := a.isLt
  have hm := m.isLt
  have hc : c.toNat ≤ 1 := by cases c <;> decide
  simp only [sum9, BitVec.toNat_add, BitVec.toNat_setWidth, ofBool_toNat_eq]
  omega

/-- The carry of a 9-bit value is its bit 8. -/
theorem bit8_eq (v : BitVec 9) : v.getLsbD 8 = decide (256 ≤ v.toNat) := by
  revert v
  decide

theorem sum9_setWidth (a m : Byte) (c : Bool) : (sum9 a m c).setWidth 8 = BitVec.ofNat 8 (a.toNat + m.toNat + c.toNat) := by
  apply BitVec.eq_of_toNat_eq
  simp [sum9_toNat]

end Sys2Proof.Machine
end

