-- ==== Sys2Proof/Laws/PerInstr.lean ====
section
/-! SUPPORT. The family EncodeShape, one lemma per constructor: every instruction is a non-empty cell of the opcode table
(spec/30_encoding.md R54) and is encoded in as many bytes as its mode says (R51, R57). -/

namespace Sys2Proof.Laws.EncodeShape

/-- The instruction is well formed, and its encoding has the length of its mode. -/
def Statement (i : Instr) : Prop := i.wellFormed = true ∧ (encode i).length = i.length

theorem adcImm (d8 : Byte) : Statement (.adcImm d8) := ⟨rfl, rfl⟩
theorem adcZp (d8 : Byte) : Statement (.adcZp d8) := ⟨rfl, rfl⟩
theorem adcZpx (d8 : Byte) : Statement (.adcZpx d8) := ⟨rfl, rfl⟩
theorem adcAbs (a16 : Addr) : Statement (.adcAbs a16) := ⟨rfl, rfl⟩
theorem adcAbx (a16 : Addr) : Statement (.adcAbx a16) := ⟨rfl, rfl⟩
theorem adcAby (a16 : Addr) : Statement (.adcAby a16) := ⟨rfl, rfl⟩
theorem adcIzx (d8 : Byte) : Statement (.adcIzx d8) := ⟨rfl, rfl⟩
theorem adcIzy (d8 : Byte) : Statement (.adcIzy d8) := ⟨rfl, rfl⟩
theorem sbcImm (d8 : Byte) : Statement (.sbcImm d8) := ⟨rfl, rfl⟩
theorem sbcZp (d8 : Byte) : Statement (.sbcZp d8) := ⟨rfl, rfl⟩
theorem sbcZpx (d8 : Byte) : Statement (.sbcZpx d8) := ⟨rfl, rfl⟩
theorem sbcAbs (a16 : Addr) : Statement (.sbcAbs a16) := ⟨rfl, rfl⟩
theorem sbcAbx (a16 : Addr) : Statement (.sbcAbx a16) := ⟨rfl, rfl⟩
theorem sbcAby (a16 : Addr) : Statement (.sbcAby a16) := ⟨rfl, rfl⟩
theorem sbcIzx (d8 : Byte) : Statement (.sbcIzx d8) := ⟨rfl, rfl⟩
theorem sbcIzy (d8 : Byte) : Statement (.sbcIzy d8) := ⟨rfl, rfl⟩
theorem andImm (d8 : Byte) : Statement (.andImm d8) := ⟨rfl, rfl⟩
theorem andZp (d8 : Byte) : Statement (.andZp d8) := ⟨rfl, rfl⟩
theorem andZpx (d8 : Byte) : Statement (.andZpx d8) := ⟨rfl, rfl⟩
theorem andAbs (a16 : Addr) : Statement (.andAbs a16) := ⟨rfl, rfl⟩
theorem andAbx (a16 : Addr) : Statement (.andAbx a16) := ⟨rfl, rfl⟩
theorem andAby (a16 : Addr) : Statement (.andAby a16) := ⟨rfl, rfl⟩
theorem andIzx (d8 : Byte) : Statement (.andIzx d8) := ⟨rfl, rfl⟩
theorem andIzy (d8 : Byte) : Statement (.andIzy d8) := ⟨rfl, rfl⟩
theorem oraImm (d8 : Byte) : Statement (.oraImm d8) := ⟨rfl, rfl⟩
theorem oraZp (d8 : Byte) : Statement (.oraZp d8) := ⟨rfl, rfl⟩
theorem oraZpx (d8 : Byte) : Statement (.oraZpx d8) := ⟨rfl, rfl⟩
theorem oraAbs (a16 : Addr) : Statement (.oraAbs a16) := ⟨rfl, rfl⟩
theorem oraAbx (a16 : Addr) : Statement (.oraAbx a16) := ⟨rfl, rfl⟩
theorem oraAby (a16 : Addr) : Statement (.oraAby a16) := ⟨rfl, rfl⟩
theorem oraIzx (d8 : Byte) : Statement (.oraIzx d8) := ⟨rfl, rfl⟩
theorem oraIzy (d8 : Byte) : Statement (.oraIzy d8) := ⟨rfl, rfl⟩
theorem eorImm (d8 : Byte) : Statement (.eorImm d8) := ⟨rfl, rfl⟩
theorem eorZp (d8 : Byte) : Statement (.eorZp d8) := ⟨rfl, rfl⟩
theorem eorZpx (d8 : Byte) : Statement (.eorZpx d8) := ⟨rfl, rfl⟩
theorem eorAbs (a16 : Addr) : Statement (.eorAbs a16) := ⟨rfl, rfl⟩
theorem eorAbx (a16 : Addr) : Statement (.eorAbx a16) := ⟨rfl, rfl⟩
theorem eorAby (a16 : Addr) : Statement (.eorAby a16) := ⟨rfl, rfl⟩
theorem eorIzx (d8 : Byte) : Statement (.eorIzx d8) := ⟨rfl, rfl⟩
theorem eorIzy (d8 : Byte) : Statement (.eorIzy d8) := ⟨rfl, rfl⟩
theorem cmpImm (d8 : Byte) : Statement (.cmpImm d8) := ⟨rfl, rfl⟩
theorem cmpZp (d8 : Byte) : Statement (.cmpZp d8) := ⟨rfl, rfl⟩
theorem cmpZpx (d8 : Byte) : Statement (.cmpZpx d8) := ⟨rfl, rfl⟩
theorem cmpAbs (a16 : Addr) : Statement (.cmpAbs a16) := ⟨rfl, rfl⟩
theorem cmpAbx (a16 : Addr) : Statement (.cmpAbx a16) := ⟨rfl, rfl⟩
theorem cmpAby (a16 : Addr) : Statement (.cmpAby a16) := ⟨rfl, rfl⟩
theorem cmpIzx (d8 : Byte) : Statement (.cmpIzx d8) := ⟨rfl, rfl⟩
theorem cmpIzy (d8 : Byte) : Statement (.cmpIzy d8) := ⟨rfl, rfl⟩
theorem cpxImm (d8 : Byte) : Statement (.cpxImm d8) := ⟨rfl, rfl⟩
theorem cpxZp (d8 : Byte) : Statement (.cpxZp d8) := ⟨rfl, rfl⟩
theorem cpxAbs (a16 : Addr) : Statement (.cpxAbs a16) := ⟨rfl, rfl⟩
theorem cpyImm (d8 : Byte) : Statement (.cpyImm d8) := ⟨rfl, rfl⟩
theorem cpyZp (d8 : Byte) : Statement (.cpyZp d8) := ⟨rfl, rfl⟩
theorem cpyAbs (a16 : Addr) : Statement (.cpyAbs a16) := ⟨rfl, rfl⟩
theorem bitZp (d8 : Byte) : Statement (.bitZp d8) := ⟨rfl, rfl⟩
theorem bitAbs (a16 : Addr) : Statement (.bitAbs a16) := ⟨rfl, rfl⟩
theorem aslAcc : Statement (.aslAcc) := ⟨rfl, rfl⟩
theorem aslZp (d8 : Byte) : Statement (.aslZp d8) := ⟨rfl, rfl⟩
theorem aslZpx (d8 : Byte) : Statement (.aslZpx d8) := ⟨rfl, rfl⟩
theorem aslAbs (a16 : Addr) : Statement (.aslAbs a16) := ⟨rfl, rfl⟩
theorem aslAbx (a16 : Addr) : Statement (.aslAbx a16) := ⟨rfl, rfl⟩
theorem lsrAcc : Statement (.lsrAcc) := ⟨rfl, rfl⟩
theorem lsrZp (d8 : Byte) : Statement (.lsrZp d8) := ⟨rfl, rfl⟩
theorem lsrZpx (d8 : Byte) : Statement (.lsrZpx d8) := ⟨rfl, rfl⟩
theorem lsrAbs (a16 : Addr) : Statement (.lsrAbs a16) := ⟨rfl, rfl⟩
theorem lsrAbx (a16 : Addr) : Statement (.lsrAbx a16) := ⟨rfl, rfl⟩
theorem rolAcc : Statement (.rolAcc) := ⟨rfl, rfl⟩
theorem rolZp (d8 : Byte) : Statement (.rolZp d8) := ⟨rfl, rfl⟩
theorem rolZpx (d8 : Byte) : Statement (.rolZpx d8) := ⟨rfl, rfl⟩
theorem rolAbs (a16 : Addr) : Statement (.rolAbs a16) := ⟨rfl, rfl⟩
theorem rolAbx (a16 : Addr) : Statement (.rolAbx a16) := ⟨rfl, rfl⟩
theorem rorAcc : Statement (.rorAcc) := ⟨rfl, rfl⟩
theorem rorZp (d8 : Byte) : Statement (.rorZp d8) := ⟨rfl, rfl⟩
theorem rorZpx (d8 : Byte) : Statement (.rorZpx d8) := ⟨rfl, rfl⟩
theorem rorAbs (a16 : Addr) : Statement (.rorAbs a16) := ⟨rfl, rfl⟩
theorem rorAbx (a16 : Addr) : Statement (.rorAbx a16) := ⟨rfl, rfl⟩
theorem incZp (d8 : Byte) : Statement (.incZp d8) := ⟨rfl, rfl⟩
theorem incZpx (d8 : Byte) : Statement (.incZpx d8) := ⟨rfl, rfl⟩
theorem incAbs (a16 : Addr) : Statement (.incAbs a16) := ⟨rfl, rfl⟩
theorem incAbx (a16 : Addr) : Statement (.incAbx a16) := ⟨rfl, rfl⟩
theorem decZp (d8 : Byte) : Statement (.decZp d8) := ⟨rfl, rfl⟩
theorem decZpx (d8 : Byte) : Statement (.decZpx d8) := ⟨rfl, rfl⟩
theorem decAbs (a16 : Addr) : Statement (.decAbs a16) := ⟨rfl, rfl⟩
theorem decAbx (a16 : Addr) : Statement (.decAbx a16) := ⟨rfl, rfl⟩
theorem inx : Statement (.inx) := ⟨rfl, rfl⟩
theorem iny : Statement (.iny) := ⟨rfl, rfl⟩
theorem dex : Statement (.dex) := ⟨rfl, rfl⟩
theorem dey : Statement (.dey) := ⟨rfl, rfl⟩
theorem ldaImm (d8 : Byte) : Statement (.ldaImm d8) := ⟨rfl, rfl⟩
theorem ldaZp (d8 : Byte) : Statement (.ldaZp d8) := ⟨rfl, rfl⟩
theorem ldaZpx (d8 : Byte) : Statement (.ldaZpx d8) := ⟨rfl, rfl⟩
theorem ldaAbs (a16 : Addr) : Statement (.ldaAbs a16) := ⟨rfl, rfl⟩
theorem ldaAbx (a16 : Addr) : Statement (.ldaAbx a16) := ⟨rfl, rfl⟩
theorem ldaAby (a16 : Addr) : Statement (.ldaAby a16) := ⟨rfl, rfl⟩
theorem ldaIzx (d8 : Byte) : Statement (.ldaIzx d8) := ⟨rfl, rfl⟩
theorem ldaIzy (d8 : Byte) : Statement (.ldaIzy d8) := ⟨rfl, rfl⟩
theorem ldxImm (d8 : Byte) : Statement (.ldxImm d8) := ⟨rfl, rfl⟩
theorem ldxZp (d8 : Byte) : Statement (.ldxZp d8) := ⟨rfl, rfl⟩
theorem ldxZpy (d8 : Byte) : Statement (.ldxZpy d8) := ⟨rfl, rfl⟩
theorem ldxAbs (a16 : Addr) : Statement (.ldxAbs a16) := ⟨rfl, rfl⟩
theorem ldxAby (a16 : Addr) : Statement (.ldxAby a16) := ⟨rfl, rfl⟩
theorem ldyImm (d8 : Byte) : Statement (.ldyImm d8) := ⟨rfl, rfl⟩
theorem ldyZp (d8 : Byte) : Statement (.ldyZp d8) := ⟨rfl, rfl⟩
theorem ldyZpx (d8 : Byte) : Statement (.ldyZpx d8) := ⟨rfl, rfl⟩
theorem ldyAbs (a16 : Addr) : Statement (.ldyAbs a16) := ⟨rfl, rfl⟩
theorem ldyAbx (a16 : Addr) : Statement (.ldyAbx a16) := ⟨rfl, rfl⟩
theorem staZp (d8 : Byte) : Statement (.staZp d8) := ⟨rfl, rfl⟩
theorem staZpx (d8 : Byte) : Statement (.staZpx d8) := ⟨rfl, rfl⟩
theorem staAbs (a16 : Addr) : Statement (.staAbs a16) := ⟨rfl, rfl⟩
theorem staAbx (a16 : Addr) : Statement (.staAbx a16) := ⟨rfl, rfl⟩
theorem staAby (a16 : Addr) : Statement (.staAby a16) := ⟨rfl, rfl⟩
theorem staIzx (d8 : Byte) : Statement (.staIzx d8) := ⟨rfl, rfl⟩
theorem staIzy (d8 : Byte) : Statement (.staIzy d8) := ⟨rfl, rfl⟩
theorem stxZp (d8 : Byte) : Statement (.stxZp d8) := ⟨rfl, rfl⟩
theorem stxZpy (d8 : Byte) : Statement (.stxZpy d8) := ⟨rfl, rfl⟩
theorem stxAbs (a16 : Addr) : Statement (.stxAbs a16) := ⟨rfl, rfl⟩
theorem styZp (d8 : Byte) : Statement (.styZp d8) := ⟨rfl, rfl⟩
theorem styZpx (d8 : Byte) : Statement (.styZpx d8) := ⟨rfl, rfl⟩
theorem styAbs (a16 : Addr) : Statement (.styAbs a16) := ⟨rfl, rfl⟩
theorem tax : Statement (.tax) := ⟨rfl, rfl⟩
theorem tay : Statement (.tay) := ⟨rfl, rfl⟩
theorem txa : Statement (.txa) := ⟨rfl, rfl⟩
theorem tya : Statement (.tya) := ⟨rfl, rfl⟩
theorem tsx : Statement (.tsx) := ⟨rfl, rfl⟩
theorem txs : Statement (.txs) := ⟨rfl, rfl⟩
theorem bcc (d8 : Byte) : Statement (.bcc d8) := ⟨rfl, rfl⟩
theorem bcs (d8 : Byte) : Statement (.bcs d8) := ⟨rfl, rfl⟩
theorem beq (d8 : Byte) : Statement (.beq d8) := ⟨rfl, rfl⟩
theorem bne (d8 : Byte) : Statement (.bne d8) := ⟨rfl, rfl⟩
theorem bmi (d8 : Byte) : Statement (.bmi d8) := ⟨rfl, rfl⟩
theorem bpl (d8 : Byte) : Statement (.bpl d8) := ⟨rfl, rfl⟩
theorem bvc (d8 : Byte) : Statement (.bvc d8) := ⟨rfl, rfl⟩
theorem bvs (d8 : Byte) : Statement (.bvs d8) := ⟨rfl, rfl⟩
theorem jmpAbs (a16 : Addr) : Statement (.jmpAbs a16) := ⟨rfl, rfl⟩
theorem jmpInd (a16 : Addr) : Statement (.jmpInd a16) := ⟨rfl, rfl⟩
theorem jsr (a16 : Addr) : Statement (.jsr a16) := ⟨rfl, rfl⟩
theorem rts : Statement (.rts) := ⟨rfl, rfl⟩
theorem brk : Statement (.brk) := ⟨rfl, rfl⟩
theorem rti : Statement (.rti) := ⟨rfl, rfl⟩
theorem pha : Statement (.pha) := ⟨rfl, rfl⟩
theorem pla : Statement (.pla) := ⟨rfl, rfl⟩
theorem php : Statement (.php) := ⟨rfl, rfl⟩
theorem plp : Statement (.plp) := ⟨rfl, rfl⟩
theorem clc : Statement (.clc) := ⟨rfl, rfl⟩
theorem sec : Statement (.sec) := ⟨rfl, rfl⟩
theorem cli : Statement (.cli) := ⟨rfl, rfl⟩
theorem sei : Statement (.sei) := ⟨rfl, rfl⟩
theorem clv : Statement (.clv) := ⟨rfl, rfl⟩
theorem cld : Statement (.cld) := ⟨rfl, rfl⟩
theorem sed : Statement (.sed) := ⟨rfl, rfl⟩
theorem nop : Statement (.nop) := ⟨rfl, rfl⟩

end Sys2Proof.Laws.EncodeShape
end

