-- ==== Sys2Proof/Laws/Run.lean ====
section
/-! SUPPORT. What a run can do, said once: it makes calls of `step()` from one state to the next, keeps their answers in order,
and stops at the first call at which its convention ends it. -/

namespace Sys2Proof.Machine

@[simp] theorem hostSteps_zero (s : State) : hostSteps 0 s = s := rfl

theorem hostSteps_succ (n : Nat) (s : State) : hostSteps (n + 1) s = hostSteps n (hostStep s).2 := rfl

/-- The last of `n + 1` calls is a call in the state after `n`. -/
theorem hostSteps_succ_last (n : Nat) (s : State) : hostSteps (n + 1) s = (hostStep (hostSteps n s)).2 := by
  induction n generalizing s with
  | zero => rfl
  | succ n ih => rw [hostSteps_succ, ih, hostSteps_succ]

/-- What every call keeps, any number of calls keeps. -/
theorem hostSteps_invariant {P : State → Prop} (h : ∀ s, P s → P (hostStep s).2) (n : Nat) {s : State} (hs : P s) :
    P (hostSteps n s) := by
  induction n generalizing s with
  | zero => exact hs
  | succ n ih => exact ih (h s hs)

/-- Whether a convention ends a run from `s` at its call number `k`, counted from 0. -/
def EndOfRun.endsAtCall (c : EndOfRun) (s : State) (k : Nat) : Bool :=
  c.endsAt (hostStep (hostSteps k s)).1 (hostSteps k s) (hostSteps (k + 1) s)

theorem EndOfRun.endsAtCall_zero (c : EndOfRun) (s : State) :
    c.endsAtCall s 0 = c.endsAt (hostStep s).1 s (hostStep s).2 := rfl

theorem EndOfRun.endsAtCall_succ (c : EndOfRun) (s : State) (k : Nat) :
    c.endsAtCall s (k + 1) = c.endsAtCall (hostStep s).2 k := rfl

theorem hostRun_zero (c : EndOfRun) (s : State) :
    hostRun c 0 s = { answers := [], last := s, ended := c == .fixedCount } := rfl

theorem hostRun_succ_end {c : EndOfRun} {s : State} (n : Nat) (h : c.endsAtCall s 0 = true) :
    hostRun c (n + 1) s = { answers := [(hostStep s).1], last := (hostStep s).2, ended := true } := by
  rw [EndOfRun.endsAtCall_zero] at h
  simp [hostRun, h]

theorem hostRun_succ_goOn {c : EndOfRun} {s : State} (n : Nat) (h : c.endsAtCall s 0 = false) :
    hostRun c (n + 1) s =
      { hostRun c n (hostStep s).2 with answers := (hostStep s).1 :: (hostRun c n (hostStep s).2).answers } := by
  rw [EndOfRun.endsAtCall_zero] at h
  simp [hostRun, h]

/-- The state a run leaves is the state after as many calls as it has answers. -/
theorem hostRun_last (c : EndOfRun) (n : Nat) (s : State) :
    (hostRun c n s).last = hostSteps (hostRun c n s).answers.length s := by
  induction n generalizing s with
  | zero => rfl
  | succ n ih =>
    cases h : c.endsAtCall s 0 with
    | true => rw [hostRun_succ_end n h]; rfl
    | false => simp [hostRun_succ_goOn n h, ih, hostSteps_succ]

/-- A run makes at most `n` calls. -/
theorem hostRun_length_le (c : EndOfRun) (n : Nat) (s : State) : (hostRun c n s).answers.length ≤ n := by
  induction n generalizing s with
  | zero => simp [hostRun_zero]
  | succ n ih =>
    cases h : c.endsAtCall s 0 with
    | true => simp [hostRun_succ_end n h]
    | false => simpa [hostRun_succ_goOn n h] using ih _

/-- A call at which the convention does not end the run is followed by the rest of the run. -/
theorem hostRun_add {c : EndOfRun} (k n : Nat) {s : State} (h : ∀ j < k, c.endsAtCall s j = false) :
    hostRun c (k + n) s =
      { hostRun c n (hostSteps k s) with
        answers := (List.range k).map (fun j => (hostStep (hostSteps j s)).1) ++ (hostRun c n (hostSteps k s)).answers } := by
  induction k generalizing s with
  | zero => simp
  | succ k ih =>
    have hrest := ih (s := (hostStep s).2) fun j hj => h (j + 1) (by omega)
    rw [show k + 1 + n = k + n + 1 by omega, hostRun_succ_goOn _ (h 0 (by omega)), hrest]
    simp [List.range_succ_eq_map, Function.comp_def, hostSteps_succ]

end Sys2Proof.Machine
end

