-- ==== Sys2Proof/Laws/Step.lean ====
section
/-! SUPPORT. What a fetch, an instruction and a step can do, said once: a fetch moves `pc` only; an instruction completes and
changes memory by writes at the addresses `storedAt` names; a step is one or the other case. -/

namespace Sys2Proof.Machine

/-- The operand fetch of a form moves `pc` only. -/
theorem fetchOperand_snd (s : State) (f : Form) : ∃ pc, (fetchOperand s f).2 = { s with pc := pc } := by
  cases f with
  | f1 i => exact ⟨s.pc, rfl⟩
  | f2 mk => exact ⟨s.pc + 1, rfl⟩
  | f3 mk => exact ⟨s.pc + 1 + 1, rfl⟩

/-- A fetched instruction: only `pc` has changed. -/
theorem fetchInstr_instr {s t : State} {i : Instr} (h : fetchInstr s = .instr i t) : ∃ pc, t = { s with pc := pc } := by
  simp only [fetchInstr] at h
  split at h
  · cases h
  · cases h
    obtain ⟨pc, hp⟩ := fetchOperand_snd s.fetch.2 ‹_›
    exact ⟨pc, hp⟩

/-- An unmapped opcode byte: it is the byte at `pc`, and only it has been fetched (R191). -/
theorem fetchInstr_illegal {s t : State} {b : Byte} (h : fetchInstr s = .illegal b t) :
    b = s.memRead s.pc ∧ opcodeForm b = none ∧ t = { s with pc := s.pc + 1 } := by
  simp only [fetchInstr] at h
  split at h
  · rename_i hn
    cases h
    exact ⟨rfl, hn, rfl⟩
  · cases h

/-- The writes of a list, the first first. -/
def applyWrites (m : Memory) : List (Addr × Byte) → Memory
  | [] => m
  | (a, v) :: ws => applyWrites (m.write a.toNat v) ws

theorem applyWrites_wf {m : Memory} (h : m.wf = true) (ws : List (Addr × Byte)) : (applyWrites m ws).wf = true := by
  induction ws generalizing m with
  | nil => exact h
  | cons p ws ih => exact ih (Memory.wf_write p.2 h p.1.isLt)

theorem applyWrites_read (m : Memory) (ws : List (Addr × Byte)) (a : Addr) (h : a ∉ ws.map Prod.fst) :
    (applyWrites m ws).read a.toNat = m.read a.toNat := by
  induction ws generalizing m with
  | nil => rfl
  | cons p ws ih =>
    simp only [List.map_cons, List.mem_cons, not_or] at h
    rw [applyWrites, ih _ h.2, Memory.read_write, if_neg (fun he => h.1 (BitVec.eq_of_toNat_eq he))]

/-- A branch writes `pc` only (R150). -/
theorem State.branchIf_eq (s : State) (b : Bool) (d8 : Byte) :
    s.branchIf b d8 = { s with pc := if b then branchTarget s d8 else s.pc } := by
  cases b <;> rfl

theorem State.branchIf_mem (s : State) (b : Bool) (d8 : Byte) : (s.branchIf b d8).mem = s.mem := by
  rw [State.branchIf_eq]

/-- Every instruction completes, and its memory is the memory before with the writes at `storedAt`. -/
theorem exec_writes (i : Instr) (s : State) :
    ∃ t ws, exec i s = .next t ∧ t.mem = applyWrites s.mem ws ∧ ws.map Prod.fst = storedAt i s := by
  cases i
  case brk =>
    refine ⟨_, [(stackAddr s.sp, _), (stackAddr (s.sp - 1), _), (stackAddr (s.sp - 1 - 1), _)], rfl, rfl, ?_⟩
    have h : s.sp - 1 - 1 = s.sp - 2 := by rw [BitVec.sub_sub]; rfl
    rw [h]
    rfl
  all_goals
    first
    | exact ⟨_, [], rfl, rfl, rfl⟩
    | exact ⟨_, [(_, _)], rfl, rfl, rfl⟩
    | exact ⟨_, [(_, _), (_, _)], rfl, rfl, rfl⟩
    | exact ⟨_, [], rfl, State.branchIf_mem s _ _, rfl⟩

/-- A step that answers a next state runs one fetched instruction (R53). -/
theorem step_next {s t : State} (h : step s = .next t) : ∃ i s', fetchInstr s = .instr i s' ∧ exec i s' = .next t := by
  unfold step at h
  split at h
  · exact ⟨_, _, ‹_›, h⟩
  · cases h

end Sys2Proof.Machine
end

