-- ==== Sys2Proof/Tests/Slice0.lean ====
section
/-! SUPPORT. The tests. The expected results of the decode tests are the bit strings of spec/opcode_table.json; those of the
step tests are the vectors of spec/95_test_vectors.md, each named after its row. The witnesses show, for every statement
of Certificates/Slice0 that has hypotheses, a state and operands that meet them. -/

namespace Sys2Proof.Tests

open Sys2Proof.Machine

set_option Elab.async false

/-! ## Well-formedness -/

/-- The cells that R54 leaves empty are refused (`STA #$00`, `BIT $00,X`, `LDX $0000,X`, `JMP` without an operand). -/
theorem test_wellFormed_refuses :
    wellFormed .sta (.imm 0x00) = false ∧ wellFormed .bit (.zpx 0x00) = false ∧
      wellFormed .ldx (.abx 0x0000) = false ∧ wellFormed .jmp .imp = false := by
  decide +kernel

/-- The cells that R54 fills are accepted. -/
theorem test_wellFormed_accepts :
    wellFormed .lda (.imm 0xFF) = true ∧ wellFormed .ldx (.zpy 0x00) = true ∧ wellFormed .jmp (.ind 0xFFFF) = true ∧
      wellFormed .ror .acc = true := by
  decide +kernel

/-! ## Decoding: one word of every row of the opcode table, operand bits after the opcode bits, low byte first -/

/-- The bytes of each row decode to its instruction and leave nothing over. -/
def decodesAll (rows : List (List Byte × Instr)) : Bool := rows.all fun p => (decode p.1).toOption == some (p.2, [])

theorem test_decode_row_0 : decodesAll
    [([0b00000000], .brk), ([0b00000001, 0x9A], .oraIzx 0x9A), ([0b00000101, 0x9A], .oraZp 0x9A),
     ([0b00000110, 0x9A], .aslZp 0x9A), ([0b00001000], .php), ([0b00001001, 0x9A], .oraImm 0x9A),
     ([0b00001010], .aslAcc), ([0b00001101, 0x34, 0x12], .oraAbs 0x1234),
     ([0b00001110, 0x34, 0x12], .aslAbs 0x1234)] = true := by
  decide +kernel

theorem test_decode_row_1 : decodesAll
    [([0b00010000, 0x9A], .bpl 0x9A), ([0b00010001, 0x9A], .oraIzy 0x9A), ([0b00010101, 0x9A], .oraZpx 0x9A),
     ([0b00010110, 0x9A], .aslZpx 0x9A), ([0b00011000], .clc), ([0b00011001, 0x34, 0x12], .oraAby 0x1234),
     ([0b00011101, 0x34, 0x12], .oraAbx 0x1234), ([0b00011110, 0x34, 0x12], .aslAbx 0x1234)] = true := by
  decide +kernel

theorem test_decode_row_2 : decodesAll
    [([0b00100000, 0x34, 0x12], .jsr 0x1234), ([0b00100001, 0x9A], .andIzx 0x9A), ([0b00100100, 0x9A], .bitZp 0x9A),
     ([0b00100101, 0x9A], .andZp 0x9A), ([0b00100110, 0x9A], .rolZp 0x9A), ([0b00101000], .plp),
     ([0b00101001, 0x9A], .andImm 0x9A), ([0b00101010], .rolAcc), ([0b00101100, 0x34, 0x12], .bitAbs 0x1234),
     ([0b00101101, 0x34, 0x12], .andAbs 0x1234), ([0b00101110, 0x34, 0x12], .rolAbs 0x1234)] = true := by
  decide +kernel

theorem test_decode_row_3 : decodesAll
    [([0b00110000, 0x9A], .bmi 0x9A), ([0b00110001, 0x9A], .andIzy 0x9A), ([0b00110101, 0x9A], .andZpx 0x9A),
     ([0b00110110, 0x9A], .rolZpx 0x9A), ([0b00111000], .sec), ([0b00111001, 0x34, 0x12], .andAby 0x1234),
     ([0b00111101, 0x34, 0x12], .andAbx 0x1234), ([0b00111110, 0x34, 0x12], .rolAbx 0x1234)] = true := by
  decide +kernel

theorem test_decode_row_4 : decodesAll
    [([0b01000000], .rti), ([0b01000001, 0x9A], .eorIzx 0x9A), ([0b01000101, 0x9A], .eorZp 0x9A),
     ([0b01000110, 0x9A], .lsrZp 0x9A), ([0b01001000], .pha), ([0b01001001, 0x9A], .eorImm 0x9A),
     ([0b01001010], .lsrAcc), ([0b01001100, 0x34, 0x12], .jmpAbs 0x1234),
     ([0b01001101, 0x34, 0x12], .eorAbs 0x1234), ([0b01001110, 0x34, 0x12], .lsrAbs 0x1234)] = true := by
  decide +kernel

theorem test_decode_row_5 : decodesAll
    [([0b01010000, 0x9A], .bvc 0x9A), ([0b01010001, 0x9A], .eorIzy 0x9A), ([0b01010101, 0x9A], .eorZpx 0x9A),
     ([0b01010110, 0x9A], .lsrZpx 0x9A), ([0b01011000], .cli), ([0b01011001, 0x34, 0x12], .eorAby 0x1234),
     ([0b01011101, 0x34, 0x12], .eorAbx 0x1234), ([0b01011110, 0x34, 0x12], .lsrAbx 0x1234)] = true := by
  decide +kernel

theorem test_decode_row_6 : decodesAll
    [([0b01100000], .rts), ([0b01100001, 0x9A], .adcIzx 0x9A), ([0b01100101, 0x9A], .adcZp 0x9A),
     ([0b01100110, 0x9A], .rorZp 0x9A), ([0b01101000], .pla), ([0b01101001, 0x9A], .adcImm 0x9A),
     ([0b01101010], .rorAcc), ([0b01101100, 0x34, 0x12], .jmpInd 0x1234),
     ([0b01101101, 0x34, 0x12], .adcAbs 0x1234), ([0b01101110, 0x34, 0x12], .rorAbs 0x1234)] = true := by
  decide +kernel

theorem test_decode_row_7 : decodesAll
    [([0b01110000, 0x9A], .bvs 0x9A), ([0b01110001, 0x9A], .adcIzy 0x9A), ([0b01110101, 0x9A], .adcZpx 0x9A),
     ([0b01110110, 0x9A], .rorZpx 0x9A), ([0b01111000], .sei), ([0b01111001, 0x34, 0x12], .adcAby 0x1234),
     ([0b01111101, 0x34, 0x12], .adcAbx 0x1234), ([0b01111110, 0x34, 0x12], .rorAbx 0x1234)] = true := by
  decide +kernel

theorem test_decode_row_8 : decodesAll
    [([0b10000001, 0x9A], .staIzx 0x9A), ([0b10000100, 0x9A], .styZp 0x9A), ([0b10000101, 0x9A], .staZp 0x9A),
     ([0b10000110, 0x9A], .stxZp 0x9A), ([0b10001000], .dey), ([0b10001010], .txa),
     ([0b10001100, 0x34, 0x12], .styAbs 0x1234), ([0b10001101, 0x34, 0x12], .staAbs 0x1234),
     ([0b10001110, 0x34, 0x12], .stxAbs 0x1234)] = true := by
  decide +kernel

theorem test_decode_row_9 : decodesAll
    [([0b10010000, 0x9A], .bcc 0x9A), ([0b10010001, 0x9A], .staIzy 0x9A), ([0b10010100, 0x9A], .styZpx 0x9A),
     ([0b10010101, 0x9A], .staZpx 0x9A), ([0b10010110, 0x9A], .stxZpy 0x9A), ([0b10011000], .tya),
     ([0b10011001, 0x34, 0x12], .staAby 0x1234), ([0b10011010], .txs),
     ([0b10011101, 0x34, 0x12], .staAbx 0x1234)] = true := by
  decide +kernel

theorem test_decode_row_A : decodesAll
    [([0b10100000, 0x9A], .ldyImm 0x9A), ([0b10100001, 0x9A], .ldaIzx 0x9A), ([0b10100010, 0x9A], .ldxImm 0x9A),
     ([0b10100100, 0x9A], .ldyZp 0x9A), ([0b10100101, 0x9A], .ldaZp 0x9A), ([0b10100110, 0x9A], .ldxZp 0x9A),
     ([0b10101000], .tay), ([0b10101001, 0x9A], .ldaImm 0x9A), ([0b10101010], .tax),
     ([0b10101100, 0x34, 0x12], .ldyAbs 0x1234), ([0b10101101, 0x34, 0x12], .ldaAbs 0x1234),
     ([0b10101110, 0x34, 0x12], .ldxAbs 0x1234)] = true := by
  decide +kernel

theorem test_decode_row_B : decodesAll
    [([0b10110000, 0x9A], .bcs 0x9A), ([0b10110001, 0x9A], .ldaIzy 0x9A), ([0b10110100, 0x9A], .ldyZpx 0x9A),
     ([0b10110101, 0x9A], .ldaZpx 0x9A), ([0b10110110, 0x9A], .ldxZpy 0x9A), ([0b10111000], .clv),
     ([0b10111001, 0x34, 0x12], .ldaAby 0x1234), ([0b10111010], .tsx), ([0b10111100, 0x34, 0x12], .ldyAbx 0x1234),
     ([0b10111101, 0x34, 0x12], .ldaAbx 0x1234), ([0b10111110, 0x34, 0x12], .ldxAby 0x1234)] = true := by
  decide +kernel

theorem test_decode_row_C : decodesAll
    [([0b11000000, 0x9A], .cpyImm 0x9A), ([0b11000001, 0x9A], .cmpIzx 0x9A), ([0b11000100, 0x9A], .cpyZp 0x9A),
     ([0b11000101, 0x9A], .cmpZp 0x9A), ([0b11000110, 0x9A], .decZp 0x9A), ([0b11001000], .iny),
     ([0b11001001, 0x9A], .cmpImm 0x9A), ([0b11001010], .dex), ([0b11001100, 0x34, 0x12], .cpyAbs 0x1234),
     ([0b11001101, 0x34, 0x12], .cmpAbs 0x1234), ([0b11001110, 0x34, 0x12], .decAbs 0x1234)] = true := by
  decide +kernel

theorem test_decode_row_D : decodesAll
    [([0b11010000, 0x9A], .bne 0x9A), ([0b11010001, 0x9A], .cmpIzy 0x9A), ([0b11010101, 0x9A], .cmpZpx 0x9A),
     ([0b11010110, 0x9A], .decZpx 0x9A), ([0b11011000], .cld), ([0b11011001, 0x34, 0x12], .cmpAby 0x1234),
     ([0b11011101, 0x34, 0x12], .cmpAbx 0x1234), ([0b11011110, 0x34, 0x12], .decAbx 0x1234)] = true := by
  decide +kernel

theorem test_decode_row_E : decodesAll
    [([0b11100000, 0x9A], .cpxImm 0x9A), ([0b11100001, 0x9A], .sbcIzx 0x9A), ([0b11100100, 0x9A], .cpxZp 0x9A),
     ([0b11100101, 0x9A], .sbcZp 0x9A), ([0b11100110, 0x9A], .incZp 0x9A), ([0b11101000], .inx),
     ([0b11101001, 0x9A], .sbcImm 0x9A), ([0b11101010], .nop), ([0b11101100, 0x34, 0x12], .cpxAbs 0x1234),
     ([0b11101101, 0x34, 0x12], .sbcAbs 0x1234), ([0b11101110, 0x34, 0x12], .incAbs 0x1234)] = true := by
  decide +kernel

theorem test_decode_row_F : decodesAll
    [([0b11110000, 0x9A], .beq 0x9A), ([0b11110001, 0x9A], .sbcIzy 0x9A), ([0b11110101, 0x9A], .sbcZpx 0x9A),
     ([0b11110110, 0x9A], .incZpx 0x9A), ([0b11111000], .sed), ([0b11111001, 0x34, 0x12], .sbcAby 0x1234),
     ([0b11111101, 0x34, 0x12], .sbcAbx 0x1234), ([0b11111110, 0x34, 0x12], .incAbx 0x1234)] = true := by
  decide +kernel

/-- An unmapped byte and an instruction cut short are rejected by name (R55, R51). -/
theorem test_decode_rejects :
    (match decode [0x02, 0x00] with | .error e => some e | .ok _ => none) = some (.illegalOpcode 0x02) ∧
      (match decode [0xAD, 0x34] with | .error e => some e | .ok _ => none) = some .truncated ∧
      (match decode [] with | .error e => some e | .ok _ => none) = some .truncated := by
  decide +kernel

/-- The host's two questions, on a word of the longest format and on an unmapped byte. -/
theorem test_decodeTableWord :
    decodeTableWord 24 0x1234AD = some (.ldaAbs 0x1234) ∧ decodeTableWord 8 0xAD = some (.ldaAbs 0x0000) ∧
      decodeTableWord 8 0xEB = none := by
  decide +kernel

/-! ## One step -/

/-- The default before-state of the vectors: `pc = 0x0600`, `SP = 0xFF`, everything else zero. -/
def base : State where
  pc := 0x0600
  sp := 0xFF
  a := 0x00
  x := 0x00
  y := 0x00
  flags := { c := false, z := false, i := false, d := false, v := false, n := false }
  mem := Memory.zeroed

/-- The register file of `base`, from which an expected result lists its differences. -/
def after : Snapshot := hostSnapshot base

/-- The six flags from the digits of a vector's `NVDIZC=` string. -/
def nvdizc (b : BitVec 6) : Flags where
  n := b.getLsbD 5
  v := b.getLsbD 4
  d := b.getLsbD 3
  i := b.getLsbD 2
  z := b.getLsbD 1
  c := b.getLsbD 0

/-- Bytes seeded at addresses. -/
def poke (s : State) (cells : List (Addr × Byte)) : State := cells.foldl (fun s c => s.memWrite c.1 c.2) s

/-- One call of `step()` with `bytes` at `pc`: its answer, the registers after it, and the bytes at `watched`. -/
def run (s : State) (bytes : List Byte) (watched : List Addr) : CallResult × Snapshot × List Byte :=
  let p := hostStep (s.writeBytes s.pc bytes)
  (p.1, hostSnapshot p.2, watched.map p.2.memRead)

/-- The very next step runs the instruction that `withFetchWord` places, from reset (`LDA #$42`, R130). -/
theorem test_withFetchWord :
    (hostStep (State.reset.withFetchWord 16 0x42A9)).1 = .ok ∧ (hostStep (State.reset.withFetchWord 16 0x42A9)).2.a = 0x42 ∧
      (hostStep (State.reset.withFetchWord 16 0x42A9)).2.pc = 0x0002 := by
  decide +kernel

/-- With nothing placed the first step after reset executes `BRK` (P5 of 95_test_vectors.md). -/
theorem test_reset_runs_brk :
    hostStep State.reset = (.ok, (hostStep State.reset).2) ∧ (hostStep State.reset).2.sp = 0xFA ∧
      (hostStep State.reset).2.mem = [(0x01FB, 0x34), (0x01FC, 0x01)] := by
  decide +kernel

/-- A2 (95_test_vectors.md; R74): `LDA $10`. -/
theorem test_ldaZp_A2 :
    run (poke base [(0x0010, 0x37)]) [0xA5, 0x10] [] =
      (.ok, { after with pc := 0x0602, a := 0x37 }, []) := by
  decide +kernel

/-- A3 (95_test_vectors.md; R75): `LDA $F0,X`. -/
theorem test_ldaZpx_A3 :
    run (poke { base with x := 0x20 } [(0x0010, 0x37), (0x0110, 0x99)]) [0xB5, 0xF0] [] =
      (.ok, { after with pc := 0x0602, a := 0x37, x := 0x20 }, []) := by
  decide +kernel

/-- A4 (95_test_vectors.md; R76): `LDX $F0,Y`. -/
theorem test_ldxZpy_A4 :
    run (poke { base with y := 0x20 } [(0x0010, 0x37), (0x0110, 0x99)]) [0xB6, 0xF0] [] =
      (.ok, { after with pc := 0x0602, x := 0x37, y := 0x20 }, []) := by
  decide +kernel

/-- A6 (95_test_vectors.md; R77): `LDA $1234`. -/
theorem test_ldaAbs_A6 :
    run (poke base [(0x1234, 0x37)]) [0xAD, 0x34, 0x12] [] =
      (.ok, { after with pc := 0x0603, a := 0x37 }, []) := by
  decide +kernel

/-- A7 (95_test_vectors.md; R78): `LDA $12FF,X`. -/
theorem test_ldaAbx_A7 :
    run (poke { base with x := 0x01 } [(0x1200, 0x99), (0x1300, 0x37)]) [0xBD, 0xFF, 0x12] [] =
      (.ok, { after with pc := 0x0603, a := 0x37, x := 0x01 }, []) := by
  decide +kernel

/-- A9 (95_test_vectors.md; R79): `LDA $12F0,Y`. -/
theorem test_ldaAby_A9 :
    run (poke { base with y := 0x20 } [(0x1310, 0x37)]) [0xB9, 0xF0, 0x12] [] =
      (.ok, { after with pc := 0x0603, a := 0x37, y := 0x20 }, []) := by
  decide +kernel

/-- A11 (95_test_vectors.md; R80): `LDA ($FE,X)`. -/
theorem test_ldaIzx_A11 :
    run (poke { base with x := 0x01 } [(0x0000, 0x30), (0x00FF, 0x00), (0x0100, 0x99), (0x3000, 0x37)]) [0xA1, 0xFE] [] =
      (.ok, { after with pc := 0x0602, a := 0x37, x := 0x01 }, []) := by
  decide +kernel

/-- A14 (95_test_vectors.md; R81): `LDA ($FF),Y`. -/
theorem test_ldaIzy_A14 :
    run (poke { base with y := 0x01 } [(0x0000, 0x30), (0x00FF, 0x00), (0x0100, 0x99), (0x3001, 0x37)]) [0xB1, 0xFF] [] =
      (.ok, { after with pc := 0x0602, a := 0x37, y := 0x01 }, []) := by
  decide +kernel

/-- A15 (95_test_vectors.md; R81): `LDA ($20),Y`. -/
theorem test_ldaIzy_A15 :
    run (poke { base with y := 0x02 } [(0x0001, 0x37), (0x0020, 0xFF), (0x0021, 0xFF)]) [0xB1, 0x20] [] =
      (.ok, { after with pc := 0x0602, a := 0x37, y := 0x02 }, []) := by
  decide +kernel

/-- A16 (95_test_vectors.md; R70, R75): `STA $F0,X`. -/
theorem test_staZpx_A16 :
    run { base with a := 0x42, x := 0x20 } [0x95, 0xF0] [0x0010] =
      (.ok, { after with pc := 0x0602, a := 0x42, x := 0x20 }, [0x42]) := by
  decide +kernel

/-- A17 (95_test_vectors.md; R81): `STA ($20),Y`. -/
theorem test_staIzy_A17 :
    run (poke { base with a := 0x42, y := 0x10 } [(0x0020, 0xF8), (0x0021, 0x30)]) [0x91, 0x20] [0x3108] =
      (.ok, { after with pc := 0x0602, a := 0x42, y := 0x10 }, [0x42]) := by
  decide +kernel

/-- A18 (95_test_vectors.md; R78, R85): `STA $12FF,X`. -/
theorem test_staAbx_A18 :
    run { base with a := 0x42, x := 0x01 } [0x9D, 0xFF, 0x12] [0x1300] =
      (.ok, { after with pc := 0x0603, a := 0x42, x := 0x01 }, [0x42]) := by
  decide +kernel

/-- A19 (95_test_vectors.md; R75): `INC $F0,X`. -/
theorem test_incZpx_A19 :
    run (poke { base with x := 0x20 } [(0x0010, 0x7F)]) [0xF6, 0xF0] [0x0010] =
      (.ok, { after with pc := 0x0602, x := 0x20, flags := nvdizc 0b100000 }, [0x80]) := by
  decide +kernel

/-- A20 (95_test_vectors.md; R78): `INC $12FF,X`. -/
theorem test_incAbx_A20 :
    run (poke { base with x := 0x01 } [(0x1300, 0xFF)]) [0xFE, 0xFF, 0x12] [0x1300] =
      (.ok, { after with pc := 0x0603, x := 0x01, flags := nvdizc 0b000010 }, [0x00]) := by
  decide +kernel

/-- A21 (95_test_vectors.md; R33, R34): `LDA #$37`. -/
theorem test_ldaImm_A21 :
    run { base with pc := 0xFFFF } [0xA9, 0x37] [] =
      (.ok, { after with pc := 0x0001, a := 0x37 }, []) := by
  decide +kernel

/-- A22 (95_test_vectors.md; R33, R34): `LDA $1234`. -/
theorem test_ldaAbs_A22 :
    run (poke { base with pc := 0xFFFE } [(0x1234, 0x37)]) [0xAD, 0x34, 0x12] [] =
      (.ok, { after with pc := 0x0001, a := 0x37 }, []) := by
  decide +kernel

/-- B1 (95_test_vectors.md; R90): `ADC #$01`. -/
theorem test_adcImm_B1 :
    run { base with a := 0x7F } [0x69, 0x01] [] =
      (.ok, { after with pc := 0x0602, a := 0x80, flags := nvdizc 0b110000 }, []) := by
  decide +kernel

/-- B7 (95_test_vectors.md; R100): `ADC #$01`. -/
theorem test_adcImm_B7 :
    run { base with a := 0x09, flags := nvdizc 0b001000 } [0x69, 0x01] [] =
      (.ok, { after with pc := 0x0602, a := 0x0A, flags := nvdizc 0b001000 }, []) := by
  decide +kernel

/-- B13 (95_test_vectors.md; R91): `SBC #$01`. -/
theorem test_sbcImm_B13 :
    run { base with a := 0x80, flags := nvdizc 0b000001 } [0xE9, 0x01] [] =
      (.ok, { after with pc := 0x0602, a := 0x7F, flags := nvdizc 0b010001 }, []) := by
  decide +kernel

/-- B17 (95_test_vectors.md; R100): `SBC #$09`. -/
theorem test_sbcImm_B17 :
    run { base with a := 0x10, flags := nvdizc 0b001001 } [0xE9, 0x09] [] =
      (.ok, { after with pc := 0x0602, a := 0x07, flags := nvdizc 0b001001 }, []) := by
  decide +kernel

/-- B19 (95_test_vectors.md; R92): `AND #$0F`. -/
theorem test_andImm_B19 :
    run { base with a := 0xF0, flags := nvdizc 0b010001 } [0x29, 0x0F] [] =
      (.ok, { after with pc := 0x0602, a := 0x00, flags := nvdizc 0b010011 }, []) := by
  decide +kernel

/-- B20 (95_test_vectors.md; R92): `AND #$F0`. -/
theorem test_andImm_B20 :
    run { base with a := 0x9F } [0x29, 0xF0] [] =
      (.ok, { after with pc := 0x0602, a := 0x90, flags := nvdizc 0b100000 }, []) := by
  decide +kernel

/-- B21 (95_test_vectors.md; R93): `ORA #$80`. -/
theorem test_oraImm_B21 :
    run { base with a := 0x01 } [0x09, 0x80] [] =
      (.ok, { after with pc := 0x0602, a := 0x81, flags := nvdizc 0b100000 }, []) := by
  decide +kernel

/-- B22 (95_test_vectors.md; R93): `ORA #$00`. -/
theorem test_oraImm_B22 :
    run { base with a := 0x00, flags := nvdizc 0b100000 } [0x09, 0x00] [] =
      (.ok, { after with pc := 0x0602, a := 0x00, flags := nvdizc 0b000010 }, []) := by
  decide +kernel

/-- B23 (95_test_vectors.md; R94): `EOR #$FF`. -/
theorem test_eorImm_B23 :
    run { base with a := 0x55 } [0x49, 0xFF] [] =
      (.ok, { after with pc := 0x0602, a := 0xAA, flags := nvdizc 0b100000 }, []) := by
  decide +kernel

/-- B24 (95_test_vectors.md; R94): `EOR #$55`. -/
theorem test_eorImm_B24 :
    run { base with a := 0x55 } [0x49, 0x55] [] =
      (.ok, { after with pc := 0x0602, a := 0x00, flags := nvdizc 0b000010 }, []) := by
  decide +kernel

/-- B27 (95_test_vectors.md; R95): `CMP #$30`. -/
theorem test_cmpImm_B27 :
    run { base with a := 0x20 } [0xC9, 0x30] [] =
      (.ok, { after with pc := 0x0602, a := 0x20, flags := nvdizc 0b100000 }, []) := by
  decide +kernel

/-- B28 (95_test_vectors.md; R95): `CMP #$7F`. -/
theorem test_cmpImm_B28 :
    run { base with a := 0x80, flags := nvdizc 0b010000 } [0xC9, 0x7F] [] =
      (.ok, { after with pc := 0x0602, a := 0x80, flags := nvdizc 0b010001 }, []) := by
  decide +kernel

/-- B31 (95_test_vectors.md; R96): `CPX #$10`. -/
theorem test_cpxImm_B31 :
    run { base with x := 0x0F } [0xE0, 0x10] [] =
      (.ok, { after with pc := 0x0602, x := 0x0F, flags := nvdizc 0b100000 }, []) := by
  decide +kernel

/-- B32 (95_test_vectors.md; R96): `CPX $10`. -/
theorem test_cpxZp_B32 :
    run (poke { base with x := 0x40 } [(0x0010, 0x40)]) [0xE4, 0x10] [] =
      (.ok, { after with pc := 0x0602, x := 0x40, flags := nvdizc 0b000011 }, []) := by
  decide +kernel

/-- B33 (95_test_vectors.md; R97): `CPY #$01`. -/
theorem test_cpyImm_B33 :
    run { base with y := 0x00 } [0xC0, 0x01] [] =
      (.ok, { after with pc := 0x0602, y := 0x00, flags := nvdizc 0b100000 }, []) := by
  decide +kernel

/-- B34 (95_test_vectors.md; R97): `CPY $3000`. -/
theorem test_cpyAbs_B34 :
    run (poke { base with y := 0xFF } [(0x3000, 0x7F)]) [0xCC, 0x00, 0x30] [] =
      (.ok, { after with pc := 0x0603, y := 0xFF, flags := nvdizc 0b100001 }, []) := by
  decide +kernel

/-- B35 (95_test_vectors.md; R98): `BIT $10`. -/
theorem test_bitZp_B35 :
    run (poke { base with a := 0x3F } [(0x0010, 0xC0)]) [0x24, 0x10] [] =
      (.ok, { after with pc := 0x0602, a := 0x3F, flags := nvdizc 0b110010 }, []) := by
  decide +kernel

/-- B36 (95_test_vectors.md; R98): `BIT $10`. -/
theorem test_bitZp_B36 :
    run (poke { base with a := 0x01, flags := nvdizc 0b110010 } [(0x0010, 0x01)]) [0x24, 0x10] [] =
      (.ok, { after with pc := 0x0602, a := 0x01 }, []) := by
  decide +kernel

/-- C1 (95_test_vectors.md; R110): `ASL A`. -/
theorem test_aslAcc_C1 :
    run { base with a := 0x80 } [0x0A] [] =
      (.ok, { after with pc := 0x0601, a := 0x00, flags := nvdizc 0b000011 }, []) := by
  decide +kernel

/-- C2 (95_test_vectors.md; R110): `ASL A`. -/
theorem test_aslAcc_C2 :
    run { base with a := 0x41, flags := nvdizc 0b000001 } [0x0A] [] =
      (.ok, { after with pc := 0x0601, a := 0x82, flags := nvdizc 0b100000 }, []) := by
  decide +kernel

/-- C4 (95_test_vectors.md; R111): `LSR A`. -/
theorem test_lsrAcc_C4 :
    run { base with a := 0x01 } [0x4A] [] =
      (.ok, { after with pc := 0x0601, a := 0x00, flags := nvdizc 0b000011 }, []) := by
  decide +kernel

/-- C5 (95_test_vectors.md; R111): `LSR A`. -/
theorem test_lsrAcc_C5 :
    run { base with a := 0x80, flags := nvdizc 0b100001 } [0x4A] [] =
      (.ok, { after with pc := 0x0601, a := 0x40 }, []) := by
  decide +kernel

/-- C7 (95_test_vectors.md; R112): `ROL A`. -/
theorem test_rolAcc_C7 :
    run { base with a := 0x80, flags := nvdizc 0b000001 } [0x2A] [] =
      (.ok, { after with pc := 0x0601, a := 0x01, flags := nvdizc 0b000001 }, []) := by
  decide +kernel

/-- C8 (95_test_vectors.md; R112): `ROL A`. -/
theorem test_rolAcc_C8 :
    run { base with a := 0x80 } [0x2A] [] =
      (.ok, { after with pc := 0x0601, a := 0x00, flags := nvdizc 0b000011 }, []) := by
  decide +kernel

/-- C10 (95_test_vectors.md; R113): `ROR A`. -/
theorem test_rorAcc_C10 :
    run { base with a := 0x01, flags := nvdizc 0b000001 } [0x6A] [] =
      (.ok, { after with pc := 0x0601, a := 0x80, flags := nvdizc 0b100001 }, []) := by
  decide +kernel

/-- C11 (95_test_vectors.md; R113): `ROR A`. -/
theorem test_rorAcc_C11 :
    run { base with a := 0x01 } [0x6A] [] =
      (.ok, { after with pc := 0x0601, a := 0x00, flags := nvdizc 0b000011 }, []) := by
  decide +kernel

/-- C15 (95_test_vectors.md; R115): `DEC $10`. -/
theorem test_decZp_C15 :
    run (poke base [(0x0010, 0x00)]) [0xC6, 0x10] [0x0010] =
      (.ok, { after with pc := 0x0602, flags := nvdizc 0b100000 }, [0xFF]) := by
  decide +kernel

/-- C16 (95_test_vectors.md; R115): `DEC $3000`. -/
theorem test_decAbs_C16 :
    run (poke base [(0x3000, 0x01)]) [0xCE, 0x00, 0x30] [0x3000] =
      (.ok, { after with pc := 0x0603, flags := nvdizc 0b000010 }, [0x00]) := by
  decide +kernel

/-- C17 (95_test_vectors.md; R116): `INX`. -/
theorem test_inx_C17 :
    run { base with x := 0xFF } [0xE8] [] =
      (.ok, { after with pc := 0x0601, x := 0x00, flags := nvdizc 0b000010 }, []) := by
  decide +kernel

/-- C18 (95_test_vectors.md; R117): `INY`. -/
theorem test_iny_C18 :
    run { base with y := 0x7F } [0xC8] [] =
      (.ok, { after with pc := 0x0601, y := 0x80, flags := nvdizc 0b100000 }, []) := by
  decide +kernel

/-- C19 (95_test_vectors.md; R118): `DEX`. -/
theorem test_dex_C19 :
    run { base with x := 0x00 } [0xCA] [] =
      (.ok, { after with pc := 0x0601, x := 0xFF, flags := nvdizc 0b100000 }, []) := by
  decide +kernel

/-- C20 (95_test_vectors.md; R118): `DEX`. -/
theorem test_dex_C20 :
    run { base with x := 0x01 } [0xCA] [] =
      (.ok, { after with pc := 0x0601, x := 0x00, flags := nvdizc 0b000010 }, []) := by
  decide +kernel

/-- C21 (95_test_vectors.md; R119): `DEY`. -/
theorem test_dey_C21 :
    run { base with y := 0x80, flags := nvdizc 0b100000 } [0x88] [] =
      (.ok, { after with pc := 0x0601, y := 0x7F }, []) := by
  decide +kernel

/-- D3 (95_test_vectors.md; R130): `LDA #$80`. -/
theorem test_ldaImm_D3 :
    run { base with flags := nvdizc 0b010001 } [0xA9, 0x80] [] =
      (.ok, { after with pc := 0x0602, a := 0x80, flags := nvdizc 0b110001 }, []) := by
  decide +kernel

/-- D4 (95_test_vectors.md; R131): `LDX #$FF`. -/
theorem test_ldxImm_D4 :
    run base [0xA2, 0xFF] [] =
      (.ok, { after with pc := 0x0602, x := 0xFF, flags := nvdizc 0b100000 }, []) := by
  decide +kernel

/-- D6 (95_test_vectors.md; R132): `LDY #$01`. -/
theorem test_ldyImm_D6 :
    run { base with flags := nvdizc 0b100010 } [0xA0, 0x01] [] =
      (.ok, { after with pc := 0x0602, y := 0x01 }, []) := by
  decide +kernel

/-- D7 (95_test_vectors.md; R132): `LDY $10,X`. -/
theorem test_ldyZpx_D7 :
    run (poke { base with x := 0x01 } [(0x0011, 0x80)]) [0xB4, 0x10] [] =
      (.ok, { after with pc := 0x0602, x := 0x01, y := 0x80, flags := nvdizc 0b100000 }, []) := by
  decide +kernel

/-- D8 (95_test_vectors.md; R133): `STA $10`. -/
theorem test_staZp_D8 :
    run (poke { base with a := 0x00 } [(0x0010, 0x55)]) [0x85, 0x10] [0x0010] =
      (.ok, { after with pc := 0x0602, a := 0x00 }, [0x00]) := by
  decide +kernel

/-- D9 (95_test_vectors.md; R133): `STA $0200`. -/
theorem test_staAbs_D9 :
    run { base with a := 0x80 } [0x8D, 0x00, 0x02] [0x0200] =
      (.ok, { after with pc := 0x0603, a := 0x80 }, [0x80]) := by
  decide +kernel

/-- D10 (95_test_vectors.md; R133): `STA ($20,X)`. -/
theorem test_staIzx_D10 :
    run (poke { base with a := 0x42, x := 0x04 } [(0x0024, 0x00), (0x0025, 0x30)]) [0x81, 0x20] [0x3000] =
      (.ok, { after with pc := 0x0602, a := 0x42, x := 0x04 }, [0x42]) := by
  decide +kernel

/-- D11 (95_test_vectors.md; R133): `STA $3000,Y`. -/
theorem test_staAby_D11 :
    run { base with a := 0x42, y := 0xFF } [0x99, 0x00, 0x30] [0x30FF] =
      (.ok, { after with pc := 0x0603, a := 0x42, y := 0xFF }, [0x42]) := by
  decide +kernel

/-- D12 (95_test_vectors.md; R134): `STX $10`. -/
theorem test_stxZp_D12 :
    run { base with x := 0x42 } [0x86, 0x10] [0x0010] =
      (.ok, { after with pc := 0x0602, x := 0x42 }, [0x42]) := by
  decide +kernel

/-- D13 (95_test_vectors.md; R134): `STX $10,Y`. -/
theorem test_stxZpy_D13 :
    run { base with x := 0x42, y := 0xF8 } [0x96, 0x10] [0x0008] =
      (.ok, { after with pc := 0x0602, x := 0x42, y := 0xF8 }, [0x42]) := by
  decide +kernel

/-- D14 (95_test_vectors.md; R135): `STY $10`. -/
theorem test_styZp_D14 :
    run { base with y := 0x42 } [0x84, 0x10] [0x0010] =
      (.ok, { after with pc := 0x0602, y := 0x42 }, [0x42]) := by
  decide +kernel

/-- D15 (95_test_vectors.md; R135): `STY $01FF`. -/
theorem test_styAbs_D15 :
    run { base with y := 0x42 } [0x8C, 0xFF, 0x01] [0x01FF] =
      (.ok, { after with pc := 0x0603, y := 0x42 }, [0x42]) := by
  decide +kernel

/-- D16 (95_test_vectors.md; R136): `TAX`. -/
theorem test_tax_D16 :
    run { base with a := 0x80 } [0xAA] [] =
      (.ok, { after with pc := 0x0601, a := 0x80, x := 0x80, flags := nvdizc 0b100000 }, []) := by
  decide +kernel

/-- D17 (95_test_vectors.md; R137): `TAY`. -/
theorem test_tay_D17 :
    run { base with a := 0x00, y := 0x55 } [0xA8] [] =
      (.ok, { after with pc := 0x0601, a := 0x00, y := 0x00, flags := nvdizc 0b000010 }, []) := by
  decide +kernel

/-- D18 (95_test_vectors.md; R138): `TXA`. -/
theorem test_txa_D18 :
    run { base with a := 0xFF, x := 0x7F, flags := nvdizc 0b100000 } [0x8A] [] =
      (.ok, { after with pc := 0x0601, a := 0x7F, x := 0x7F }, []) := by
  decide +kernel

/-- D19 (95_test_vectors.md; R139): `TYA`. -/
theorem test_tya_D19 :
    run { base with y := 0x80 } [0x98] [] =
      (.ok, { after with pc := 0x0601, a := 0x80, y := 0x80, flags := nvdizc 0b100000 }, []) := by
  decide +kernel

/-- D20 (95_test_vectors.md; R140): `TSX`. -/
theorem test_tsx_D20 :
    run { base with sp := 0x80 } [0xBA] [] =
      (.ok, { after with pc := 0x0601, sp := 0x80, x := 0x80, flags := nvdizc 0b100000 }, []) := by
  decide +kernel

/-- D21 (95_test_vectors.md; R140): `TSX`. -/
theorem test_tsx_D21 :
    run { base with sp := 0x00, x := 0x55 } [0xBA] [] =
      (.ok, { after with pc := 0x0601, sp := 0x00, x := 0x00, flags := nvdizc 0b000010 }, []) := by
  decide +kernel

/-- D22 (95_test_vectors.md; R141): `TXS`. -/
theorem test_txs_D22 :
    run { base with sp := 0xFF, x := 0x00 } [0x9A] [] =
      (.ok, { after with pc := 0x0601, sp := 0x00, x := 0x00 }, []) := by
  decide +kernel

/-- D23 (95_test_vectors.md; R141): `TXS`. -/
theorem test_txs_D23 :
    run { base with sp := 0xFF, x := 0x80 } [0x9A] [] =
      (.ok, { after with pc := 0x0601, sp := 0x80, x := 0x80 }, []) := by
  decide +kernel

/-- E1 (95_test_vectors.md; R154): `BNE $0600`. -/
theorem test_bne_E1 : run base [0xD0, 0xFE] [] = (.ok, { after with pc := 0x0600 }, []) := by
  decide +kernel

/-- E3 (95_test_vectors.md; R154): `BNE $0604`. -/
theorem test_bne_E3 :
    run { base with flags := nvdizc 0b000010 } [0xD0, 0x02] [] =
      (.ok, { after with pc := 0x0602, flags := nvdizc 0b000010 }, []) := by
  decide +kernel

/-- E4 (95_test_vectors.md; R153): `BEQ $0612`. -/
theorem test_beq_E4 :
    run { base with flags := nvdizc 0b000010 } [0xF0, 0x10] [] =
      (.ok, { after with pc := 0x0612, flags := nvdizc 0b000010 }, []) := by
  decide +kernel

/-- E7 (95_test_vectors.md; R151): `BCC $0681`. -/
theorem test_bcc_E7 :
    run { base with flags := nvdizc 0b000001 } [0x90, 0x7F] [] =
      (.ok, { after with pc := 0x0602, flags := nvdizc 0b000001 }, []) := by
  decide +kernel

/-- E8 (95_test_vectors.md; R152): `BCS $0582`. -/
theorem test_bcs_E8 :
    run { base with flags := nvdizc 0b000001 } [0xB0, 0x80] [] =
      (.ok, { after with pc := 0x0582, flags := nvdizc 0b000001 }, []) := by
  decide +kernel

/-- E9 (95_test_vectors.md; R152): `BCS $0582`. -/
theorem test_bcs_E9 : run base [0xB0, 0x80] [] = (.ok, { after with pc := 0x0602 }, []) := by
  decide +kernel

/-- E10 (95_test_vectors.md; R155): `BMI $0602`. -/
theorem test_bmi_E10 :
    run { base with flags := nvdizc 0b100000 } [0x30, 0x00] [] =
      (.ok, { after with pc := 0x0602, flags := nvdizc 0b100000 }, []) := by
  decide +kernel

/-- E11 (95_test_vectors.md; R155): `BMI $0607`. -/
theorem test_bmi_E11 : run base [0x30, 0x05] [] = (.ok, { after with pc := 0x0602 }, []) := by
  decide +kernel

/-- E12 (95_test_vectors.md; R156): `BPL $0607`. -/
theorem test_bpl_E12 : run base [0x10, 0x05] [] = (.ok, { after with pc := 0x0607 }, []) := by
  decide +kernel

/-- E13 (95_test_vectors.md; R156): `BPL $0607`. -/
theorem test_bpl_E13 :
    run { base with flags := nvdizc 0b100000 } [0x10, 0x05] [] =
      (.ok, { after with pc := 0x0602, flags := nvdizc 0b100000 }, []) := by
  decide +kernel

/-- E14 (95_test_vectors.md; R157): `BVC $05FE`. -/
theorem test_bvc_E14 : run base [0x50, 0xFC] [] = (.ok, { after with pc := 0x05FE }, []) := by
  decide +kernel

/-- E15 (95_test_vectors.md; R157): `BVC $05FE`. -/
theorem test_bvc_E15 :
    run { base with flags := nvdizc 0b010000 } [0x50, 0xFC] [] =
      (.ok, { after with pc := 0x0602, flags := nvdizc 0b010000 }, []) := by
  decide +kernel

/-- E16 (95_test_vectors.md; R158): `BVS $0607`. -/
theorem test_bvs_E16 :
    run { base with flags := nvdizc 0b010000 } [0x70, 0x05] [] =
      (.ok, { after with pc := 0x0607, flags := nvdizc 0b010000 }, []) := by
  decide +kernel

/-- E17 (95_test_vectors.md; R158): `BVS $0607`. -/
theorem test_bvs_E17 : run base [0x70, 0x05] [] = (.ok, { after with pc := 0x0602 }, []) := by
  decide +kernel

/-- E18 (95_test_vectors.md; R150): `BCC $0071`. -/
theorem test_bcc_E18 :
    run { base with pc := 0xFFF0 } [0x90, 0x7F] [] =
      (.ok, { after with pc := 0x0071 }, []) := by
  decide +kernel

/-- E19 (95_test_vectors.md; R150): `BEQ $FF82`. -/
theorem test_beq_E19 :
    run { base with pc := 0x0000, flags := nvdizc 0b000010 } [0xF0, 0x80] [] =
      (.ok, { after with pc := 0xFF82, flags := nvdizc 0b000010 }, []) := by
  decide +kernel

/-- E21 (95_test_vectors.md; R159): `JMP $1234`. -/
theorem test_jmpAbs_E21 : run base [0x4C, 0x34, 0x12] [] = (.ok, { after with pc := 0x1234 }, []) := by
  decide +kernel

/-- E22 (95_test_vectors.md; R159, R214): `JMP $0600`. -/
theorem test_jmpAbs_E22 : run base [0x4C, 0x00, 0x06] [] = (.ok, { after with pc := 0x0600 }, []) := by
  decide +kernel

/-- E26 (95_test_vectors.md; R161): `JSR $1234`. -/
theorem test_jsr_E26 :
    run base [0x20, 0x34, 0x12] [0x01FF, 0x01FE] =
      (.ok, { after with pc := 0x1234, sp := 0xFD }, [0x06, 0x02]) := by
  decide +kernel

/-- E27 (95_test_vectors.md; R161): `JSR $1234`. -/
theorem test_jsr_E27 :
    run { base with sp := 0x00 } [0x20, 0x34, 0x12] [0x0100, 0x01FF] =
      (.ok, { after with pc := 0x1234, sp := 0xFE }, [0x06, 0x02]) := by
  decide +kernel

/-- E29 (95_test_vectors.md; R162): `RTS`. -/
theorem test_rts_E29 :
    run (poke { base with pc := 0x1234, sp := 0xFD } [(0x01FE, 0x02), (0x01FF, 0x06)]) [0x60] [] =
      (.ok, { after with pc := 0x0603, sp := 0xFF }, []) := by
  decide +kernel

/-- E30 (95_test_vectors.md; R162): `RTS`. -/
theorem test_rts_E30 :
    run (poke { base with sp := 0xFE } [(0x0100, 0xFF), (0x01FF, 0xFF)]) [0x60] [] =
      (.ok, { after with pc := 0x0000, sp := 0x00 }, []) := by
  decide +kernel

/-- E32 (95_test_vectors.md; R163): `BRK`. -/
theorem test_brk_E32 :
    run (poke { base with flags := nvdizc 0b100100 } [(0xFFFE, 0x34), (0xFFFF, 0x12)]) [0x00] [0x01FF, 0x01FE, 0x01FD] =
      (.ok, { after with pc := 0x1234, sp := 0xFC, flags := nvdizc 0b100100 }, [0x06, 0x01, 0xB4]) := by
  decide +kernel

/-- E33 (95_test_vectors.md; R163): `BRK`. -/
theorem test_brk_E33 :
    run { base with pc := 0xFFFF, sp := 0x01 } [0x00] [0x0101, 0x0100, 0x01FF] =
      (.ok, { after with pc := 0x0000, sp := 0xFE, flags := nvdizc 0b000100 }, [0x00, 0x00, 0x30]) := by
  decide +kernel

/-- E34 (95_test_vectors.md; R164): `RTI`. -/
theorem test_rti_E34 :
    run (poke { base with pc := 0x0700, sp := 0xFC, flags := nvdizc 0b000100 } [(0x01FD, 0x39), (0x01FE, 0x03), (0x01FF, 0x06)])
        [0x40] [] =
      (.ok, { after with pc := 0x0603, sp := 0xFF, flags := nvdizc 0b001001 }, []) := by
  decide +kernel

/-- E35 (95_test_vectors.md; R164): `RTI`. -/
theorem test_rti_E35 :
    run (poke { base with sp := 0xFE } [(0x0100, 0x34), (0x0101, 0x12), (0x01FF, 0xFF)]) [0x40] [] =
      (.ok, { after with pc := 0x1234, sp := 0x01, flags := nvdizc 0b111111 }, []) := by
  decide +kernel

/-- G1 (95_test_vectors.md; R170): `PHA`. -/
theorem test_pha_G1 :
    run { base with a := 0x2A } [0x48] [0x01FF] =
      (.ok, { after with pc := 0x0601, sp := 0xFE, a := 0x2A }, [0x2A]) := by
  decide +kernel

/-- G2 (95_test_vectors.md; R170): `PHA`. -/
theorem test_pha_G2 :
    run { base with sp := 0x00, a := 0x2A } [0x48] [0x0100] =
      (.ok, { after with pc := 0x0601, sp := 0xFF, a := 0x2A }, [0x2A]) := by
  decide +kernel

/-- G4 (95_test_vectors.md; R171): `PLA`. -/
theorem test_pla_G4 :
    run (poke { base with sp := 0xFF, a := 0x55 } [(0x0100, 0x00)]) [0x68] [] =
      (.ok, { after with pc := 0x0601, sp := 0x00, a := 0x00, flags := nvdizc 0b000010 }, []) := by
  decide +kernel

/-- G5 (95_test_vectors.md; R171): `PLA`. -/
theorem test_pla_G5 :
    run (poke { base with sp := 0x7F } [(0x0180, 0x80)]) [0x68] [] =
      (.ok, { after with pc := 0x0601, sp := 0x80, a := 0x80, flags := nvdizc 0b100000 }, []) := by
  decide +kernel

/-- G6 (95_test_vectors.md; R172): `PHP`. -/
theorem test_php_G6 : run base [0x08] [0x01FF] = (.ok, { after with pc := 0x0601, sp := 0xFE }, [0x30]) := by
  decide +kernel

/-- G8 (95_test_vectors.md; R172): `PHP`. -/
theorem test_php_G8 :
    run { base with flags := nvdizc 0b101111 } [0x08] [0x01FF] =
      (.ok, { after with pc := 0x0601, sp := 0xFE, flags := nvdizc 0b101111 }, [0xBF]) := by
  decide +kernel

/-- G10 (95_test_vectors.md; R173): `PLP`. -/
theorem test_plp_G10 :
    run (poke { base with sp := 0xFE, flags := nvdizc 0b111111 } [(0x01FF, 0x30)]) [0x28] [] =
      (.ok, { after with pc := 0x0601, sp := 0xFF }, []) := by
  decide +kernel

/-- G11 (95_test_vectors.md; R173): `PLP`. -/
theorem test_plp_G11 :
    run (poke { base with sp := 0xFE } [(0x01FF, 0xCF)]) [0x28] [] =
      (.ok, { after with pc := 0x0601, sp := 0xFF, flags := nvdizc 0b111111 }, []) := by
  decide +kernel

/-- G13 (95_test_vectors.md; R174): `CLC`. -/
theorem test_clc_G13 :
    run { base with flags := nvdizc 0b000001 } [0x18] [] =
      (.ok, { after with pc := 0x0601 }, []) := by
  decide +kernel

/-- G14 (95_test_vectors.md; R175): `SEC`. -/
theorem test_sec_G14 : run base [0x38] [] = (.ok, { after with pc := 0x0601, flags := nvdizc 0b000001 }, []) := by
  decide +kernel

/-- G15 (95_test_vectors.md; R176): `CLI`. -/
theorem test_cli_G15 :
    run { base with flags := nvdizc 0b000100 } [0x58] [] =
      (.ok, { after with pc := 0x0601 }, []) := by
  decide +kernel

/-- G16 (95_test_vectors.md; R177): `SEI`. -/
theorem test_sei_G16 : run base [0x78] [] = (.ok, { after with pc := 0x0601, flags := nvdizc 0b000100 }, []) := by
  decide +kernel

/-- G17 (95_test_vectors.md; R178): `CLV`. -/
theorem test_clv_G17 :
    run { base with flags := nvdizc 0b010000 } [0xB8] [] =
      (.ok, { after with pc := 0x0601 }, []) := by
  decide +kernel

/-- G18 (95_test_vectors.md; R179): `CLD`. -/
theorem test_cld_G18 :
    run { base with flags := nvdizc 0b001000 } [0xD8] [] =
      (.ok, { after with pc := 0x0601 }, []) := by
  decide +kernel

/-- G19 (95_test_vectors.md; R180): `SED`. -/
theorem test_sed_G19 : run base [0xF8] [] = (.ok, { after with pc := 0x0601, flags := nvdizc 0b001000 }, []) := by
  decide +kernel

/-- G20 (95_test_vectors.md; R175): `SEC`. -/
theorem test_sec_G20 :
    run { base with flags := nvdizc 0b000001 } [0x38] [] =
      (.ok, { after with pc := 0x0601, flags := nvdizc 0b000001 }, []) := by
  decide +kernel

/-- G21 (95_test_vectors.md; R181): `NOP`. -/
theorem test_nop_G21 :
    run { base with a := 0x12, flags := nvdizc 0b100001 } [0xEA] [] =
      (.ok, { after with pc := 0x0601, a := 0x12, flags := nvdizc 0b100001 }, []) := by
  decide +kernel

/-- H1 (95_test_vectors.md; R191): `.byte $FF`. -/
theorem test_illegal_H1 : run base [0xFF] [] = (.fault 0xFF 0x0600, { after with pc := 0x0601 }, []) := by
  decide +kernel

/-- H3 (95_test_vectors.md; R191): `.byte $FF`. -/
theorem test_illegal_H3 :
    run { base with pc := 0xFFFF } [0xFF] [] =
      (.fault 0xFF 0xFFFF, { after with pc := 0x0000 }, []) := by
  decide +kernel

/-! ## Runs: the three conventions of R214 -/

/-- (a) goes on after a fault (Q3 of 95_test_vectors.md). -/
theorem test_run_fixedCount :
    hostRun .fixedCount 2 (base.writeBytes 0x0600 [0xFF, 0xEA]) =
      { answers := [.fault 0xFF 0x0600, .ok], last := { base.writeBytes 0x0600 [0xFF, 0xEA] with pc := 0x0602 },
        ended := true } := by
  decide +kernel

/-- (b) ends at the fault, `pc` one past the unmapped byte (R214). -/
theorem test_run_firstFault :
    hostRun .firstFault 5 (base.writeBytes 0x0600 [0xEA, 0xFF]) =
      { answers := [.ok, .fault 0xFF 0x0601], last := { base.writeBytes 0x0600 [0xEA, 0xFF] with pc := 0x0602 },
        ended := true } := by
  decide +kernel

/-- (c) ends at a jump to itself (E22 of 95_test_vectors.md), and a run that its bound cuts short says so. -/
theorem test_run_unchanged :
    hostRun .unchanged 5 (base.writeBytes 0x0600 [0x4C, 0x00, 0x06]) =
        { answers := [.ok], last := base.writeBytes 0x0600 [0x4C, 0x00, 0x06], ended := true } ∧
      (hostRun .unchanged 1 (base.writeBytes 0x0600 [0xEA])).ended = false := by
  decide +kernel

/-! ## Witnesses: states and operands that meet the hypotheses of the statements -/

/-- A state with an instruction at `pc`. -/
def loaded (bytes : List Byte) : State := base.writeBytes base.pc bytes

/-- The state an instruction leaves; the state itself where it leaves none. -/
def ran (i : Instr) (s : State) : State :=
  match exec i s with
  | .next t => t
  | .fault _ => s
  | .refused _ => s

theorem exec_ran (i : Instr) (s : State) : exec i s = .next (ran i s) := by
  obtain ⟨t, _, ht, _⟩ := exec_writes i s
  rw [ran, ht]

/-- What a step answers, as data that can be compared: the next state, or the fault. -/
def answer (s : State) : Option State × Option Fault :=
  match step s with
  | .next t => (some t, none)
  | .fault f => (none, some f)
  | .refused _ => (none, none)

theorem witness_EncodeOfDecode :
    (decode [0xAD, 0x34, 0x12, 0xFF]).toOption = some (.ldaAbs 0x1234, [0xFF]) ∧
      (decode [0xEA]).toOption = some (.nop, []) := by
  decide +kernel

theorem witness_OpcodeByteSelectsOperationAndMode : (Instr.ldaImm 0x00).opcode = (Instr.ldaImm 0xFF).opcode := rfl

theorem witness_StepFetchesDecodesAndRuns_ok :
    decode ((loaded [0x8D, 0xFF, 0xFF]).readBytes (loaded [0x8D, 0xFF, 0xFF]).pc 3) = .ok (.staAbs 0xFFFF, []) := rfl

theorem witness_StepFetchesDecodesAndRuns_illegal :
    decode ((loaded [0xFF]).readBytes (loaded [0xFF]).pc 3) = .error (.illegalOpcode 0xFF) := rfl

/-- The first and the last of the 105 unmapped bytes. -/
theorem witness_UnmappedBytesFault :
    (loaded [0x02]).memRead (loaded [0x02]).pc ∈ illegalBytes ∧ (loaded [0xFF]).memRead (loaded [0xFF]).pc ∈ illegalBytes := by
  decide +kernel

theorem witness_StepAlwaysAnswers :
    (loaded [0x02]).memRead (loaded [0x02]).pc ∈ illegalBytes ∧
      (loaded [0x01]).memRead (loaded [0x01]).pc ∉ illegalBytes := by
  decide +kernel

theorem witness_FaultIsNotSticky :
    (loaded [0xFF, 0xEA]).memRead (loaded [0xFF, 0xEA]).pc ∈ illegalBytes ∧
      (loaded [0xFF, 0xEA]).memRead ((loaded [0xFF, 0xEA]).pc + 1) = 0xEA := by
  decide +kernel

theorem witness_SequentialInstructionsAdvancePc :
    decode ((loaded [0xA9, 0x37]).readBytes (loaded [0xA9, 0x37]).pc 3) = .ok (.ldaImm 0x37, [0x00]) ∧
      writesPC (.ldaImm 0x37) = false := ⟨rfl, rfl⟩

theorem witness_StoreIsSeenByTheNextFetch :
    effectiveAddress (Instr.staAbs 0x0600).addressing base = some base.pc ∧ (Instr.staAbs 0x0600).mnemonic = .sta ∧
      effectiveAddress (Instr.stxAbs 0x0600).addressing base = some base.pc ∧ (Instr.stxAbs 0x0600).mnemonic = .stx ∧
      effectiveAddress (Instr.styAbs 0x0600).addressing base = some base.pc ∧ (Instr.styAbs 0x0600).mnemonic = .sty := by
  decide +kernel

/-- Two histories of writes that end in one memory: the first and the last address, and a byte written back to zero. -/
theorem witness_CanonicalMemoriesThatReadAlikeAreEqual :
    let m := Memory.write (Memory.write (Memory.write Memory.zeroed 65535 0x12) 7 0x34) 0 0x56
    let m' := Memory.write (Memory.write (Memory.write Memory.zeroed 0 0x56) 65535 0x12) 7 0x34
    m.wf = true ∧ m'.wf = true ∧ ∀ a : Addr, m.read a.toNat = m'.read a.toNat :=
  ⟨by decide +kernel, by decide +kernel, fun _ => rfl⟩

theorem witness_StepsKeepMemoryCanonical :
    (loaded [0x85, 0x10]).Inv ∧ (answer (loaded [0x85, 0x10])).1.isSome = true ∧ (loaded [0xFF]).Inv ∧
      answer (loaded [0xFF]) = (none, some (.illegalOpcode 0xFF 0x0600 (hostStep (loaded [0xFF])).2)) := by
  decide +kernel

/-- Each indexed mode at the wrap, the plain mode at the top of page zero. -/
theorem witness_ZeroPageModes :
    effectiveAddress (.zp 0xFF) { base with x := 0x01, y := 0x01 } = some 0x00FF ∧
      effectiveAddress (.zpx 0xFF) { base with x := 0x01, y := 0x01 } = some 0x0000 ∧
      effectiveAddress (.zpy 0xFF) { base with x := 0x01, y := 0x01 } = some 0x0000 := by
  decide +kernel

theorem witness_OperandOfEachMode : effectiveAddress (.abx 0xFFFF) { base with x := 0x02 } = some 0x0001 := by decide +kernel

theorem witness_AdcAddsWithCarry : (Instr.adcImm 0xFF).mnemonic = .adc ∧ (Instr.adcIzy 0xFF).mnemonic = .adc := ⟨rfl, rfl⟩

theorem witness_SbcSubtractsWithBorrow : (Instr.sbcImm 0xFF).mnemonic = .sbc ∧ (Instr.sbcIzy 0xFF).mnemonic = .sbc := ⟨rfl, rfl⟩

theorem witness_OverflowFlagIsSignedOverflow :
    (Instr.adcImm 0x01).mnemonic = .adc ∧ (Instr.sbcImm 0x01).mnemonic = .sbc := ⟨rfl, rfl⟩

theorem witness_DecimalFlagIsOnlyStored :
    (Instr.sed.mnemonic ≠ .php ∧ Instr.sed.mnemonic ≠ .brk) ∧
      ((Instr.adcImm 0x01).mnemonic ≠ .php ∧ (Instr.adcImm 0x01).mnemonic ≠ .brk) ∧
      (Instr.adcImm 0x01).mnemonic ∉ [Mnemonic.sed, .cld, .plp, .rti] := by
  decide +kernel

theorem witness_InterruptFlagMasksNothing :
    (Instr.sei.mnemonic ≠ .php ∧ Instr.sei.mnemonic ≠ .brk) ∧ (Instr.nop.mnemonic ≠ .php ∧ Instr.nop.mnemonic ≠ .brk) ∧
      Instr.nop.mnemonic ∉ [Mnemonic.brk, .sei, .cli, .plp, .rti] := by
  decide +kernel

theorem witness_LogicCombinesWithAccumulator :
    (Instr.andZpx 0xFF).mnemonic = .and ∧ (Instr.oraAby 0xFFFF).mnemonic = .ora ∧ (Instr.eorIzx 0x00).mnemonic = .eor :=
  ⟨rfl, rfl, rfl⟩

theorem witness_ComparesSetFlagsOnly :
    (Instr.cmpIzy 0xFF).mnemonic = .cmp ∧ (Instr.cpxImm 0xFF).mnemonic = .cpx ∧ (Instr.cpyAbs 0xFFFF).mnemonic = .cpy :=
  ⟨rfl, rfl, rfl⟩

theorem witness_BitTestsTheOperand : (Instr.bitZp 0xFF).mnemonic = .bit ∧ (Instr.bitAbs 0xFFFF).mnemonic = .bit := ⟨rfl, rfl⟩

theorem witness_ShiftsMoveOneBit :
    Instr.aslAcc.mnemonic = .asl ∧ (Instr.aslAbx 0xFFFF).mnemonic = .asl ∧ Instr.lsrAcc.mnemonic = .lsr ∧
      (Instr.lsrZpx 0xFF).mnemonic = .lsr := ⟨rfl, rfl, rfl, rfl⟩

theorem witness_RotatesGoThroughCarry :
    Instr.rolAcc.mnemonic = .rol ∧ (Instr.rolAbx 0xFFFF).mnemonic = .rol ∧ Instr.rorAcc.mnemonic = .ror ∧
      (Instr.rorZpx 0xFF).mnemonic = .ror := ⟨rfl, rfl, rfl, rfl⟩

theorem witness_RotatePairsRestore :
    (Instr.rolAcc, Instr.rorAcc) ∈ [(Instr.rolAcc, Instr.rorAcc), (.rorAcc, .rolAcc)] ∧
      (Instr.rorZp 0xFF, Instr.rolZp 0xFF) ∈ [(Instr.rolZp 0xFF, Instr.rorZp 0xFF), (.rorZp 0xFF, .rolZp 0xFF)] := by
  decide +kernel

theorem witness_IncAndDecOfMemory : (Instr.incAbx 0xFFFF).mnemonic = .inc ∧ (Instr.decZpx 0xFF).mnemonic = .dec := ⟨rfl, rfl⟩

theorem witness_LoadsSetZeroAndNegative :
    (Instr.ldaIzx 0xFF).mnemonic = .lda ∧ (Instr.ldxZpy 0xFF).mnemonic = .ldx ∧ (Instr.ldyAbx 0xFFFF).mnemonic = .ldy :=
  ⟨rfl, rfl, rfl⟩

theorem witness_StoresWriteOneByte :
    (Instr.staIzy 0xFF).mnemonic = .sta ∧ (Instr.stxZpy 0xFF).mnemonic = .stx ∧ (Instr.styAbs 0xFFFF).mnemonic = .sty :=
  ⟨rfl, rfl, rfl⟩

/-- Each condition met and not met, and the two ends of the offset's range. -/
theorem witness_BranchesAddASignedOffset :
    (base.flags.c = false ∧ base.flags.z = false ∧ base.flags.n = false ∧ base.flags.v = false) ∧
      ((nvdizc 0b110011).c = true ∧ (nvdizc 0b110011).z = true ∧ (nvdizc 0b110011).n = true ∧ (nvdizc 0b110011).v = true) ∧
      (0x80 : Byte).toInt = -128 ∧ (0x7F : Byte).toInt = 127 := by
  decide +kernel

/-- The addresses beside the two stored ones, with the stack at its top and at its wrap. -/
theorem witness_JsrPushesReturnAddressMinusOne :
    (0x01FD : Addr) ∉ storedAt (.jsr 0x1234) base ∧ (0x0200 : Addr) ∉ storedAt (.jsr 0x1234) base ∧
      (0x0101 : Addr) ∉ storedAt (.jsr 0x1234) { base with sp := 0x00 } := by
  decide +kernel

/-- A later state: other registers, the flags and another byte of memory have changed. -/
def later (t : State) (f : Flags) : State := State.memWrite { t with a := 0x55, pc := 0x2000, flags := f } 0x0300 0x77

theorem later_sp (t : State) (f : Flags) : (later t f).sp = t.sp := rfl

theorem later_memRead (t : State) (f : Flags) (a : Addr) (h : a ≠ 0x0300) : (later t f).memRead a = t.memRead a := by
  rw [later, State.memRead_memWrite, if_neg h, State.memRead_frame]

theorem later_meets (i : Instr) (s : State) (f : Flags) (h : (storedAt i s).all (fun a => a != 0x0300) = true) :
    exec i s = .next (ran i s) ∧ (later (ran i s) f).sp = (ran i s).sp ∧
      ∀ a ∈ storedAt i s, (later (ran i s) f).memRead a = (ran i s).memRead a :=
  ⟨exec_ran i s, later_sp _ f, fun a ha => later_memRead _ f a (by simpa using List.all_eq_true.mp h a ha)⟩

theorem witness_JsrThenRtsReturns :
    exec (.jsr 0x1234) base = .next (ran (.jsr 0x1234) base) ∧
      (later (ran (.jsr 0x1234) base) (nvdizc 0b110011)).sp = (ran (.jsr 0x1234) base).sp ∧
      ∀ a ∈ storedAt (.jsr 0x1234) base, (later (ran (.jsr 0x1234) base) (nvdizc 0b110011)).memRead a = (ran (.jsr 0x1234) base).memRead a :=
  later_meets (.jsr 0x1234) base (nvdizc 0b110011) (by decide +kernel)

theorem witness_BrkTakesTheSoftwareInterrupt :
    (0x01FC : Addr) ∉ storedAt .brk base ∧ (0x0200 : Addr) ∉ storedAt .brk base ∧
      (0x01FE : Addr) ∉ storedAt .brk { base with sp := 0x01 } := by
  decide +kernel

theorem witness_BrkThenRtiReturns :
    exec .brk base = .next (ran .brk base) ∧
      (later (ran .brk base) (nvdizc 0b110011)).sp = (ran .brk base).sp ∧
      ∀ a ∈ storedAt .brk base, (later (ran .brk base) (nvdizc 0b110011)).memRead a = (ran .brk base).memRead a :=
  later_meets .brk base (nvdizc 0b110011) (by decide +kernel)

theorem witness_PhaAndPhpPush :
    (0x01FE : Addr) ∉ storedAt .pha base ∧ (0x0100 : Addr) ∉ storedAt .pha base ∧
      (0x01FF : Addr) ∉ storedAt .php { base with sp := 0x00 } := by
  decide +kernel

theorem witness_PhpThenPlpRestoresFlags :
    exec .php base = .next (ran .php base) ∧
      (later (ran .php base) (nvdizc 0b110011)).sp = (ran .php base).sp ∧
      ∀ a ∈ storedAt .php base, (later (ran .php base) (nvdizc 0b110011)).memRead a = (ran .php base).memRead a :=
  later_meets .php base (nvdizc 0b110011) (by decide +kernel)

theorem witness_RegistersWrittenByEachInstruction :
    writesA .inx = false ∧ writesX .iny = false ∧ writesY .inx = false ∧ writesSP .tsx = false ∧
      writesPC (.ldaImm 0xFF) = false ∧ writesA (.aslZp 0xFF) = false := by
  decide +kernel

theorem witness_MemoryWrittenByEachInstruction :
    (0x0010 : Addr) ∉ storedAt (.ldaZp 0x10) base ∧ (0x0011 : Addr) ∉ storedAt (.incZp 0x10) base := by
  decide +kernel

theorem witness_PushesStayInTheStackPage :
    Instr.brk.mnemonic ∈ [Mnemonic.pha, .php, .jsr, .brk] ∧
      storedAt .brk { base with sp := 0x01 } = [0x0101, 0x0100, 0x01FF] ∧
      (ran .brk { base with sp := 0x01 }).memRead 0x01FF ≠ base.memRead 0x01FF ∧
      (ran (.jsr 0x1234) { base with sp := 0x00 }).memRead 0x0100 ≠ base.memRead 0x0100 := by
  decide +kernel

/-- Two states with memories built in another order. -/
theorem witness_SnapshotShowsTheRegisterFile :
    let s := (base.memWrite 0xFFFF 0x12).memWrite 0x0000 0x34
    let t := (base.memWrite 0x0000 0x34).memWrite 0xFFFF 0x12
    s.Inv ∧ t.Inv ∧ hostSnapshot s = hostSnapshot t ∧ ∀ a : Addr, hostReadMemory a s = hostReadMemory a t :=
  ⟨by decide +kernel, by decide +kernel, rfl, fun _ => rfl⟩

/-- Each convention's end, at the last call the bound allows (`EA FF`, `EA 4C 01 06`), and the bound reached first. -/
theorem witness_RunEndsByItsConvention :
    let f := loaded [0xEA, 0xFF]
    let u := loaded [0xEA, 0x4C, 0x01, 0x06]
    ((hostSteps 1 f).memRead (hostSteps 1 f).pc ∈ illegalBytes ∧ ∀ j < 1, (hostSteps j f).memRead (hostSteps j f).pc ∉ illegalBytes) ∧
      (hostSteps 2 u = hostSteps 1 u ∧ ∀ j < 1, hostSteps (j + 1) u ≠ hostSteps j u) := by
  decide +kernel

end Sys2Proof.Tests
end

section
/-! PROOF. A memory in canonical form is determined by its bytes, and the host sees the whole state (10_state.md R19, R199). -/

namespace Sys2Proof.Machine

/-- Of two canonical memories that read alike, one cannot list an address below all the addresses of the other. -/
theorem Memory.le_of_reads_alike {lo lo' k : Nat} {v : Byte} {m m' : Memory}
    (h : Memory.wfFrom lo ((k, v) :: m) = true) (h' : Memory.wfFrom lo' m' = true)
    (heq : ∀ j < Memory.size, Memory.read ((k, v) :: m) j = m'.read j) : lo' ≤ k := by
  obtain ⟨-, hk, hv, -⟩ := Memory.wfFrom_cons.mp h
  by_contra hlt
  have hread := heq k hk
  rw [Memory.read_cons, if_pos rfl, Memory.read_of_lt h' (by omega)] at hread
  exact hv hread

/-- A canonical memory with an entry reads unlike the empty one. -/
theorem Memory.cons_reads_unlike_nil {lo k : Nat} {v : Byte} {m : Memory} (h : Memory.wfFrom lo ((k, v) :: m) = true) :
    ¬ ∀ j < Memory.size, Memory.read ((k, v) :: m) j = Memory.read [] j := by
  intro heq
  have hsize : Memory.size ≤ k := Memory.le_of_reads_alike h (m' := []) rfl heq
  obtain ⟨-, hk, -, -⟩ := Memory.wfFrom_cons.mp h
  omega

/-- The tails of canonical memories with the same first entry read alike if the memories do. -/
theorem Memory.tails_read_alike {k : Nat} {v : Byte} {m m' : Memory} (h : Memory.wfFrom (k + 1) m = true)
    (h' : Memory.wfFrom (k + 1) m' = true)
    (heq : ∀ j < Memory.size, Memory.read ((k, v) :: m) j = Memory.read ((k, v) :: m') j) :
    ∀ j < Memory.size, m.read j = m'.read j := by
  intro j hj
  by_cases hjk : j = k
  · rw [Memory.read_of_lt h (by omega), Memory.read_of_lt h' (by omega)]
  · simpa only [Memory.read_cons, if_neg hjk] using heq j hj

/-- Extensionality of canonical memories, by induction on both lists. -/
theorem Memory.eq_of_reads_alike {lo lo' : Nat} {m m' : Memory} (h : Memory.wfFrom lo m = true)
    (h' : Memory.wfFrom lo' m' = true) (heq : ∀ j < Memory.size, m.read j = m'.read j) : m = m' := by
  induction m generalizing lo lo' m' with
  | nil =>
    cases m' with
    | nil => rfl
    | cons p' m' => exact absurd (fun j hj => (heq j hj).symm) (Memory.cons_reads_unlike_nil h')
  | cons p m ih =>
    obtain ⟨k, v⟩ := p
    cases m' with
    | nil => exact absurd heq (Memory.cons_reads_unlike_nil h)
    | cons p' m' =>
      obtain ⟨k', v'⟩ := p'
      obtain ⟨-, hk, hv, hm⟩ := Memory.wfFrom_cons.mp h
      obtain ⟨-, -, hv', hm'⟩ := Memory.wfFrom_cons.mp h'
      have hle : k' ≤ k :=
        Memory.le_of_reads_alike h (Memory.wfFrom_cons.mpr ⟨le_rfl, (Memory.wfFrom_cons.mp h').2⟩) heq
      have hge : k ≤ k' :=
        Memory.le_of_reads_alike h' (Memory.wfFrom_cons.mpr ⟨le_rfl, (Memory.wfFrom_cons.mp h).2⟩)
          fun j hj => (heq j hj).symm
      obtain rfl : k = k' := le_antisymm hge hle
      obtain rfl : v = v' := by simpa only [Memory.read_cons, if_true] using heq k hk
      rw [ih hm hm' (Memory.tails_read_alike hm hm' heq)]

/-- A state is its register snapshot and its memory (R10, R199). -/
theorem State.eq_of_snapshot_of_mem {s t : State} (h : hostSnapshot s = hostSnapshot t) (hm : s.mem = t.mem) : s = t := by
  cases s
  cases t
  cases h
  cases hm
  rfl

/-- Settles O13: a canonical list is determined entry by entry, since an unlisted address reads as no entry does. -/
theorem canonicalMemoriesThatReadAlikeAreEqual : Obligations.CanonicalMemoriesThatReadAlikeAreEqual := by
  intro m m' h h' heq
  exact Memory.eq_of_reads_alike h h' fun j hj => heq (BitVec.ofNatLT j hj)

/-- Settles O56: the snapshot gives the registers and the flags, and the reads determine the canonical memory. -/
theorem snapshotShowsTheRegisterFile : Obligations.SnapshotShowsTheRegisterFile := by
  intro s t hs ht hsnap hread
  exact State.eq_of_snapshot_of_mem hsnap (canonicalMemoriesThatReadAlikeAreEqual s.mem t.mem hs ht hread)

end Sys2Proof.Machine
end

section
/-! PROOF. Every step, fault and host transaction keeps the memory canonical (log entry 4), and power-on sets it up (R210). -/

namespace Sys2Proof.Machine

/-- An instruction writes memory by `Mem[k] <- v` alone, so it keeps the canonical form. -/
theorem exec_keeps_inv {i : Instr} {s t : State} (h : exec i s = .next t) (hs : s.Inv) : t.Inv := by
  obtain ⟨t', ws, hexec, hmem, -⟩ := exec_writes i s
  obtain rfl : t' = t := Host.Outcome.next.inj (hexec.symm.trans h)
  rw [State.Inv, hmem]
  exact applyWrites_wf hs ws

/-- Every instruction completes: it answers no fault. -/
theorem exec_ne_fault (i : Instr) (s : State) (r : Fault) : exec i s ≠ .fault r := by
  obtain ⟨t, ws, hexec, -, -⟩ := exec_writes i s
  simp [hexec]

theorem step_next_keeps_inv {s t : State} (h : step s = .next t) (hs : s.Inv) : t.Inv := by
  obtain ⟨i, s', hfetch, hexec⟩ := step_next h
  obtain ⟨pc, rfl⟩ := fetchInstr_instr hfetch
  exact exec_keeps_inv hexec hs

/-- The state a fault leaves is the one before it with the opcode byte fetched (R191). -/
theorem step_fault {s t : State} {b : Byte} {p : Addr} (h : step s = .fault (.illegalOpcode b p t)) :
    b = s.memRead s.pc ∧ p = s.pc ∧ t = { s with pc := s.pc + 1 } := by
  unfold step at h
  split at h
  · exact absurd h (exec_ne_fault _ _ _)
  · rename_i hfetch
    obtain ⟨hb, -, ht⟩ := fetchInstr_illegal hfetch
    cases h
    exact ⟨hb, rfl, ht⟩

theorem step_fault_keeps_inv {s t : State} {b : Byte} {p : Addr} (h : step s = .fault (.illegalOpcode b p t))
    (hs : s.Inv) : t.Inv := by
  obtain ⟨-, -, rfl⟩ := step_fault h
  exact hs

/-- A call of `step()` leaves the state of the step, of the fault, or, after a refusal, the state before. -/
theorem hostStep_keeps_inv {s : State} (hs : s.Inv) : (hostStep s).2.Inv := by
  unfold hostStep
  split
  · exact step_next_keeps_inv ‹_› hs
  · exact step_fault_keeps_inv ‹_› hs
  · exact hs

theorem hostSteps_keep_inv (n : Nat) {s : State} (hs : s.Inv) : (hostSteps n s).Inv :=
  hostSteps_invariant (P := State.Inv) (fun _ => hostStep_keeps_inv) n hs

theorem powerOn_inv (r : ResetValues) : (State.powerOn r).Inv := Memory.wf_zeroed

/-- Settles O14: a step is a fetch, which leaves memory alone, and an instruction, which only writes it; a run is calls. -/
theorem stepsKeepMemoryCanonical : Obligations.StepsKeepMemoryCanonical := by
  refine ⟨fun s t hs h => step_next_keeps_inv h hs, fun s t b p hs h => step_fault_keeps_inv h hs,
    fun s a v hs => State.mem_write_inv hs a v, fun s r _ => powerOn_inv r, fun n s hs => hostSteps_keep_inv n hs,
    fun c n s hs => ?_⟩
  rw [hostRun_last]
  exact hostSteps_keep_inv _ hs

/-- Settles O15: power-on leaves the empty list, whatever the reset values. -/
theorem powerOnMemoryIsCanonical : Obligations.PowerOnMemoryIsCanonical :=
  ⟨powerOn_inv, powerOn_inv Config.suggestedReset⟩

/-- After power-on every byte of memory is zero (R210). -/
@[simp] theorem powerOn_memRead (r : ResetValues) (a : Addr) : (State.powerOn r).memRead a = 0 :=
  Memory.read_zeroed a.toNat

/-- The reset vector is read after the zeroing, so `pc` is zero (R22, R210). -/
theorem powerOn_pc (r : ResetValues) : (State.powerOn r).pc = 0 := by
  simp [State.powerOn, joinBytes]

/-- Settles O16: memory is zeroed before the vector is read, and the registers hold their parameters. -/
theorem powerOnState : Obligations.PowerOnState := by
  intro r s
  exact ⟨powerOn_memRead r, rfl, powerOn_pc r, rfl, rfl, rfl, rfl, rfl⟩

end Sys2Proof.Machine
end

section
/-! PROOF. Packing and unpacking the status byte (10_state.md R15 to R17), and PLP after PHP (45_stack_flags_nop.md R172, R173). -/

namespace Sys2Proof.Machine

/-- Unpacking undoes packing, whatever bits 5 and 4 are (R16, R17). -/
@[simp] theorem unpackP_packBits (b5 b4 : Bool) (f : Flags) : unpackP (packBits b5 b4 f) = f := by
  simp only [unpackP, packBits, BitVec.getLsbD_append]
  simp

@[simp] theorem unpackP_packP (f : Flags) : unpackP (packP f) = f := unpackP_packBits _ _ f

/-- The status byte as a number (R16). -/
theorem packP_toNat (f : Flags) : (packP f).toNat =
    bitNat f.n * 128 + bitNat f.v * 64 + 32 + 16 + bitNat f.d * 8 + bitNat f.i * 4 + bitNat f.z * 2 + bitNat f.c := by
  obtain ⟨c, z, i, d, v, n⟩ := f
  revert c z i d v n
  decide

/-- A bit of a bit vector, by arithmetic on its number. -/
theorem getLsbD_eq_div_mod {w : Nat} (b : BitVec w) (k : Nat) : b.getLsbD k = decide (b.toNat / 2 ^ k % 2 = 1) := by
  rw [BitVec.getLsbD, Nat.testBit_eq_decide_div_mod_eq]

/-- The six flags are kept through the byte, and bits 5 and 4 come out set (R16, R17). -/
theorem packP_unpackP (v : Byte) : packP (unpackP v) = v ||| 0x30 := by
  revert v
  decide

/-- Settles O49: each flag has its own bit of the byte, and bits 5 and 4 are discarded. -/
theorem statusByteRoundTrips : Obligations.StatusByteRoundTrips := by
  refine ⟨unpackP_packBits, unpackP_packP, packP_toNat, fun b => ?_, packP_unpackP⟩
  simp only [unpackP, getLsbD_eq_div_mod]

/-- Settles O50: the byte PHP pushed lies at the address PLP pulls from. -/
theorem phpThenPlpRestoresFlags : Obligations.PhpThenPlpRestoresFlags := by
  intro s
  refine ⟨s.push (packP s.flags), rfl, fun u hsp hmem => ?_⟩
  have hpulled : u.sp + 1 = s.sp := by rw [hsp, State.push_sp, BitVec.sub_add_cancel]
  have hbyte : u.memRead (stackAddr s.sp) = packP s.flags := by
    rw [hmem _ (List.mem_singleton.mpr rfl), State.memRead_push, if_pos rfl]
  calc exec .plp u
      = .next { u with sp := u.sp + 1, flags := unpackP (u.memRead (stackAddr (u.sp + 1))) } := rfl
    _ = .next { u with flags := s.flags, sp := s.sp } := by rw [hpulled, hbyte, unpackP_packP]

end Sys2Proof.Machine
end

section
/-! PROOF. What an instruction does depends on its mnemonic, and its addressing mode enters only through the operand byte, the
effective address and the jump target (40_addressing_modes.md R70, R84). `resultState` says this once; facts about all 151
forms are then facts about the 56 mnemonics. -/

namespace Sys2Proof.Machine

/-- The operand byte `m` of a form that has one (R70); zero for the others, which do not use it. -/
def State.operand (s : State) (am : Addressing) : Byte := (operandByte am s).getD 0

/-- The effective address of a form that has one (R70); zero for the others, which do not use it. -/
def State.target (s : State) (am : Addressing) : Addr := (effectiveAddress am s).getD 0

/-- Where a branch that is taken or a jump goes (R150, R159, R160). -/
def State.jumpTarget (s : State) : Addressing → Addr
  | .rel d8 => branchTarget s d8
  | .ind a16 => indirectTarget s a16
  | am => s.target am

/-- A shift, rotate, increment or decrement of the operand, in `A` in mode ACC and in memory in the others (R70, R84). -/
def State.modify (s : State) (op : Byte → Flags → Byte × Flags) (am : Addressing) : State :=
  let p := op (s.operand am) s.flags
  { s with
    flags := p.2
    a := match am with
      | .acc => p.1
      | _ => s.a
    mem := match effectiveAddress am s with
      | some ea => s.mem.write ea.toNat p.1
      | none => s.mem }

/-- A branch with its condition (R150). -/
def State.branch (s : State) (condition : Bool) (am : Addressing) : State :=
  { s with pc := if condition then s.jumpTarget am else s.pc }

/-- The state an instruction completes with, from its mnemonic and its addressing mode with the operand. -/
def resultState (mn : Mnemonic) (am : Addressing) (s : State) : State :=
  match mn with
  | .adc => s.accumulate aluAdc (s.operand am)
  | .sbc => s.accumulate aluSbc (s.operand am)
  | .and => s.accumulate aluAnd (s.operand am)
  | .ora => s.accumulate aluOra (s.operand am)
  | .eor => s.accumulate aluEor (s.operand am)
  | .cmp => s.compareWith s.a (s.operand am)
  | .cpx => s.compareWith s.x (s.operand am)
  | .cpy => s.compareWith s.y (s.operand am)
  | .bit => s.bitTest (s.operand am)
  | .asl => s.modify aluAsl am
  | .lsr => s.modify aluLsr am
  | .rol => s.modify aluRol am
  | .ror => s.modify aluRor am
  | .inc => s.modify aluInc am
  | .dec => s.modify aluDec am
  | .inx => s.modifyX aluInc
  | .iny => s.modifyY aluInc
  | .dex => s.modifyX aluDec
  | .dey => s.modifyY aluDec
  | .lda => s.loadA (s.operand am)
  | .ldx => s.loadX (s.operand am)
  | .ldy => s.loadY (s.operand am)
  | .sta => s.memWrite (s.target am) s.a
  | .stx => s.memWrite (s.target am) s.x
  | .sty => s.memWrite (s.target am) s.y
  | .tax => s.loadX s.a
  | .tay => s.loadY s.a
  | .txa => s.loadA s.x
  | .tya => s.loadA s.y
  | .tsx => s.loadX s.sp
  | .txs => { s with sp := s.x }
  | .bcc => s.branch (!s.flags.c) am
  | .bcs => s.branch s.flags.c am
  | .beq => s.branch s.flags.z am
  | .bne => s.branch (!s.flags.z) am
  | .bmi => s.branch s.flags.n am
  | .bpl => s.branch (!s.flags.n) am
  | .bvc => s.branch (!s.flags.v) am
  | .bvs => s.branch s.flags.v am
  | .jmp => { s with pc := s.jumpTarget am }
  | .jsr => { s.push16 (s.pc - 1) with pc := s.target am }
  | .rts => { s.pull16.2 with pc := s.pull16.1 + 1 }
  | .brk => s.enterInterrupt
  | .rti => s.returnFromInterrupt
  | .pha => s.push s.a
  | .pla => s.pull.2.loadA s.pull.1
  | .php => s.push (packP s.flags)
  | .plp => { s.pull.2 with flags := unpackP s.pull.1 }
  | .clc => { s with flags := { s.flags with c := false } }
  | .sec => { s with flags := { s.flags with c := true } }
  | .cli => { s with flags := { s.flags with i := false } }
  | .sei => { s with flags := { s.flags with i := true } }
  | .clv => { s with flags := { s.flags with v := false } }
  | .cld => { s with flags := { s.flags with d := false } }
  | .sed => { s with flags := { s.flags with d := true } }
  | .nop => s

/-- The model's branch, with its condition moved into `pc` (R150). -/
theorem State.branch_rel (s : State) (b : Bool) (d8 : Byte) : s.branch b (.rel d8) = s.branchIf b d8 :=
  (State.branchIf_eq s b d8).symm

/-- Every instruction completes, with the state that its mnemonic and its addressing mode give. -/
theorem exec_eq_resultState (i : Instr) (s : State) : exec i s = .next (resultState i.mnemonic i.addressing s) := by
  cases i
  case bcc | bcs | beq | bne | bmi | bpl | bvc | bvs => exact congrArg _ (State.branch_rel s _ _).symm
  all_goals rfl

/-- Every instruction is a non-empty cell of R54's table. -/
theorem instr_wellFormed (i : Instr) : i.wellFormed = true := by
  cases i <;> rfl

theorem mode_mem_modes (i : Instr) : i.addressing.mode ∈ i.mnemonic.modes :=
  List.contains_iff_mem.mp (instr_wellFormed i)

/-- Every mode but IMP, REL and IND delivers an operand byte (R70). -/
theorem operandByte_eq_some {am : Addressing} (s : State) (h : am.mode ∉ [Mode.imp, .rel, .ind]) :
    operandByte am s = some (s.operand am) := by
  cases am
  case imp | rel | ind => exact absurd h (by simp [Addressing.mode])
  all_goals rfl

/-- A mnemonic that exists in none of IMP, REL and IND has its operand byte in every form. -/
theorem operandByte_of_modes {i : Instr} (s : State) (h : ∀ md ∈ i.mnemonic.modes, md ∉ [Mode.imp, .rel, .ind]) :
    operandByte i.addressing s = some (s.operand i.addressing) :=
  operandByte_eq_some s (h _ (mode_mem_modes i))

end Sys2Proof.Machine
end

section
/-! PROOF. Which registers and flags an instruction writes (10_state.md R23, R24), and where `pc` stands after it (R11). -/

namespace Sys2Proof.Machine

/-! Each named case is a row of R23 that lists the register; every other mnemonic leaves it alone. -/

/-- A modification keeps `A` unless it is in mode ACC. -/
theorem State.modify_a (s : State) (op : Byte → Flags → Byte × Flags) {am : Addressing} (h : am ≠ .acc) :
    (s.modify op am).a = s.a := by
  cases am
  case acc => exact absurd rfl h
  all_goals rfl

/-- A form whose mnemonic has no cell in column ACC is not in mode ACC (R54). -/
theorem addressing_ne_acc {i : Instr} (h : Mode.acc ∉ i.mnemonic.modes) : i.addressing ≠ .acc := by
  intro hacc
  have hmem := mode_mem_modes i
  rw [hacc] at hmem
  exact h hmem

theorem resultState_a {i : Instr} (s : State) (h : writesA i = false) :
    (resultState i.mnemonic i.addressing s).a = s.a := by
  have hacc := addressing_ne_acc (i := i)
  unfold writesA at h
  cases hmn : i.mnemonic <;> rw [hmn] at h hacc
  case adc | sbc | and | ora | eor | lda | pla | txa | tya => exact absurd h (by simp)
  case asl | lsr | rol | ror => exact State.modify_a s _ (by simpa using h)
  case inc | dec => exact State.modify_a s _ (hacc (by decide))
  all_goals rfl

theorem resultState_x {i : Instr} (s : State) (h : writesX i = false) :
    (resultState i.mnemonic i.addressing s).x = s.x := by
  unfold writesX at h
  cases hmn : i.mnemonic <;> rw [hmn] at h
  case ldx | tax | tsx | inx | dex => exact absurd h (by decide)
  all_goals rfl

theorem resultState_y {i : Instr} (s : State) (h : writesY i = false) :
    (resultState i.mnemonic i.addressing s).y = s.y := by
  unfold writesY at h
  cases hmn : i.mnemonic <;> rw [hmn] at h
  case ldy | tay | iny | dey => exact absurd h (by decide)
  all_goals rfl

theorem resultState_sp {i : Instr} (s : State) (h : writesSP i = false) :
    (resultState i.mnemonic i.addressing s).sp = s.sp := by
  unfold writesSP at h
  cases hmn : i.mnemonic <;> rw [hmn] at h
  case txs | pha | php | pla | plp | jsr | rts | brk | rti => exact absurd h (by decide)
  all_goals rfl

theorem resultState_pc {i : Instr} (s : State) (h : writesPC i = false) :
    (resultState i.mnemonic i.addressing s).pc = s.pc := by
  unfold writesPC at h
  cases hmn : i.mnemonic <;> rw [hmn] at h
  case bcc | bcs | beq | bne | bmi | bpl | bvc | bvs | jmp | jsr | rts | brk | rti => exact absurd h (by decide)
  all_goals rfl

/-- Settles O53, register by register. -/
theorem registersWrittenByEachInstruction : Obligations.RegistersWrittenByEachInstruction := by
  intro i s
  exact ⟨_, exec_eq_resultState i s, resultState_a s, resultState_x s, resultState_y s, resultState_sp s,
    resultState_pc s⟩

/-- A row of R24 holds when each of its six entries does. -/
theorem FlagRow.holds_of_entries {r : FlagRow} {i : Instr} {s t : State}
    (h : r.n.Holds .n i s t ∧ r.v.Holds .v i s t ∧ r.d.Holds .d i s t ∧ r.i.Holds .i i s t ∧ r.z.Holds .z i s t ∧
      r.c.Holds .c i s t) (fl : Flag) : (r.get fl).Holds fl i s t := by
  obtain ⟨hn, hv, hd, hi, hz, hc⟩ := h
  cases fl <;> assumption

/-- Each mnemonic meets its row of R24. The named cases are the rows with a star or an operand bit; in the others every
flag is kept, forced or pulled. -/
theorem resultState_flagRow (i : Instr) (s : State) (fl : Flag) :
    ((flagRow i.mnemonic).get fl).Holds fl i s (resultState i.mnemonic i.addressing s) := by
  refine FlagRow.holds_of_entries ?_ fl
  have hoperand := operandByte_of_modes (i := i) s
  cases hmn : i.mnemonic <;> rw [hmn] at hoperand
  case adc | sbc => exact ⟨trivial, trivial, rfl, rfl, trivial, trivial⟩
  case asl | lsr | rol | ror | cmp | cpx | cpy => exact ⟨trivial, rfl, rfl, rfl, trivial, trivial⟩
  case and | ora | eor | inc | dec | inx | iny | dex | dey | lda | ldx | ldy | tax | tay | txa | tya | tsx | pla =>
    exact ⟨trivial, rfl, rfl, rfl, trivial, rfl⟩
  case bit =>
    have hm := hoperand (by decide)
    exact ⟨⟨_, hm, rfl⟩, ⟨_, hm, rfl⟩, rfl, rfl, trivial, rfl⟩
  all_goals exact ⟨rfl, rfl, rfl, rfl, rfl, rfl⟩

/-- Settles O52, row by row of R24. -/
theorem flagsWrittenByEachInstruction : Obligations.FlagsWrittenByEachInstruction := by
  intro i s
  exact ⟨_, exec_eq_resultState i s, resultState_flagRow i s⟩

end Sys2Proof.Machine
end

section
/-! PROOF. The fetch agrees with the decoder: the bytes at `pc` decode to the instruction that is fetched, and `pc` moves on by
its length (30_encoding.md R51, R53; 20_memory.md R33). -/

namespace Sys2Proof.Machine

/-- Every instruction of a form has the length of its format (R51). -/
def Form.HasItsLength : Form → Prop
  | .f1 i => i.length = 1
  | .f2 mk => ∀ d8, (mk d8).length = 2
  | .f3 mk => ∀ a16, (mk a16).length = 3

theorem opcodeTable_lengths : ∀ p ∈ opcodeTable, Form.HasItsLength p.2 := by
  simp only [opcodeTable, opcodeRow0, opcodeRow1, opcodeRow2, opcodeRow3, opcodeRow4, opcodeRow5, opcodeRow6, opcodeRow7,
    opcodeRow8, opcodeRow9, opcodeRowA, opcodeRowB, opcodeRowC, opcodeRowD, opcodeRowE, opcodeRowF,
    List.forall_mem_append, List.forall_mem_cons, List.not_mem_nil, false_implies, implies_true, and_true]
  simp only [Form.HasItsLength, Instr.length, Instr.addressing, Addressing.mode, Mode.length, implies_true, and_self]

theorem opcodeForm_hasItsLength {b : Byte} {f : Form} (h : opcodeForm b = some f) : Form.HasItsLength f :=
  opcodeTable_lengths _ (findForm_mem h)

/-- The fetch of the opcode and of the operand together moves `pc` on by the length (R33, R51). -/
theorem fetchOperand_pc {f : Form} (h : Form.HasItsLength f) (s : State) :
    (fetchOperand s.fetch.2 f).2 =
      { s with pc := s.pc + BitVec.ofNat 16 (fetchOperand s.fetch.2 f).1.length } := by
  cases f with
  | f1 i =>
    have hlen : (fetchOperand s.fetch.2 (.f1 i)).1.length = 1 := h
    rw [hlen]
    rfl
  | f2 mk =>
    have hlen : (fetchOperand s.fetch.2 (.f2 mk)).1.length = 2 := h _
    rw [hlen]
    simp [fetchOperand, State.fetch, BitVec.add_assoc]
  | f3 mk =>
    have hlen : (fetchOperand s.fetch.2 (.f3 mk)).1.length = 3 := h _
    rw [hlen]
    simp [fetchOperand, State.fetch, BitVec.add_assoc]

/-- The decoder reads the operand that the fetch reads (R52, R53). -/
theorem decode_readBytes {s : State} {f : Form} (h : opcodeForm (s.memRead s.pc) = some f) :
    ∃ rest, decode (s.readBytes s.pc 3) = .ok ((fetchOperand s.fetch.2 f).1, rest) := by
  simp only [State.readBytes, decode, h]
  cases f <;> exact ⟨_, rfl⟩

/-- When the three bytes at `pc` decode, the fetch gives that instruction, with `pc` moved on by its length. -/
theorem fetchInstr_of_decode {s : State} {i : Instr} {rest : List Byte}
    (h : decode (s.readBytes s.pc 3) = .ok (i, rest)) :
    fetchInstr s = .instr i { s with pc := s.pc + BitVec.ofNat 16 i.length } := by
  cases hform : opcodeForm (s.memRead s.pc) with
  | none => simp [State.readBytes, decode, hform] at h
  | some form =>
    obtain ⟨rest', hdecode⟩ := decode_readBytes hform
    obtain rfl : (fetchOperand s.fetch.2 form).1 = i := (Prod.mk.inj (Except.ok.inj (hdecode.symm.trans h))).1
    simp only [fetchInstr, State.fetch_fst, hform, ← fetchOperand_pc (opcodeForm_hasItsLength hform) s]

/-- A step whose bytes decode is the instruction, run with `pc` past it (R53; log entry 5). -/
theorem step_of_decode {s : State} {i : Instr} {rest : List Byte} (h : decode (s.readBytes s.pc 3) = .ok (i, rest)) :
    step s = exec i { s with pc := s.pc + BitVec.ofNat 16 i.length } := by
  rw [step, fetchInstr_of_decode h]

/-- Settles O10: the fetch moves `pc` on by the length, and the instruction leaves it there. -/
theorem sequentialInstructionsAdvancePc : Obligations.SequentialInstructionsAdvancePc := by
  intro s i rest hdecode hpc
  rw [step_of_decode hdecode]
  exact ⟨_, exec_eq_resultState i _, resultState_pc _ hpc⟩

end Sys2Proof.Machine
end

section
/-! PROOF. The pushes stay in the stack page (10_state.md R12, 20_memory.md R34, R48). -/

namespace Sys2Proof.Machine

/-- A byte at an address the instruction does not store to reads as before. -/
theorem exec_memRead_frame {i : Instr} {s t : State} (h : exec i s = .next t) {a : Addr} (ha : a ∉ storedAt i s) :
    t.memRead a = s.memRead a := by
  obtain ⟨t', ws, hexec, hmem, hws⟩ := exec_writes i s
  obtain rfl : t' = t := Host.Outcome.next.inj (hexec.symm.trans h)
  rw [State.memRead, hmem]
  exact applyWrites_read s.mem ws a (hws ▸ ha)

/-- Every stack address lies in the stack page, whatever the stack pointer (R12). -/
theorem stackAddr_in_page (sp : Byte) : 0x0100 ≤ (stackAddr sp).toNat ∧ (stackAddr sp).toNat ≤ 0x01FF := by
  have := sp.isLt
  rw [stackAddr_toNat]
  omega

/-- The slots of `n` pushes in a row, the first first: the stack pointer goes down by one and wraps (R48). -/
def pushSlots (sp : Byte) (n : Nat) : List Addr := (List.range n).map fun k => stackAddr (sp - BitVec.ofNat 8 k)

theorem pushSlots_in_page {sp : Byte} {n : Nat} {a : Addr} (h : a ∈ pushSlots sp n) :
    0x0100 ≤ a.toNat ∧ a.toNat ≤ 0x01FF := by
  obtain ⟨k, -, rfl⟩ := List.mem_map.mp h
  exact stackAddr_in_page _

@[simp] theorem pushSlots_length (sp : Byte) (n : Nat) : (pushSlots sp n).length = n := by simp [pushSlots]

/-- At most 256 pushes in a row meet no slot twice. -/
theorem pushSlots_nodup (sp : Byte) {n : Nat} (hn : n ≤ 256) : (pushSlots sp n).Nodup := by
  refine List.Nodup.map_on (fun j hj k hk h => ?_) List.nodup_range
  rw [List.mem_range] at hj hk
  have hsp := stackAddr_inj.mp h
  bv_omega

/-- PHA, PHP, JSR and BRK store to the slots of their pushes and leave the stack pointer below them. -/
theorem push_storedAt_and_sp {i : Instr} (h : i.mnemonic ∈ [Mnemonic.pha, .php, .jsr, .brk]) (s : State) :
    ∃ n ≤ 3, storedAt i s = pushSlots s.sp n ∧
      (resultState i.mnemonic i.addressing s).sp = s.sp - BitVec.ofNat 8 n := by
  simp only [List.mem_cons, List.not_mem_nil, or_false] at h
  unfold storedAt
  rcases h with h | h | h | h <;> rw [h]
  · exact ⟨1, by decide, by simp [pushSlots], rfl⟩
  · exact ⟨1, by decide, by simp [pushSlots], rfl⟩
  · exact ⟨2, by decide, by simp [pushSlots, List.range_succ], by simp [resultState, BitVec.sub_sub]⟩
  · exact ⟨3, by decide, by simp [pushSlots, List.range_succ],
      by simp [resultState, State.enterInterrupt_eq, BitVec.sub_sub]⟩

/-- Settles O55: a byte that changes is at a slot of a push, and every slot is in the page. -/
theorem pushesStayInTheStackPage : Obligations.PushesStayInTheStackPage := by
  intro i s hi
  obtain ⟨n, hn, hslots, hsp⟩ := push_storedAt_and_sp hi s
  have hexec := exec_eq_resultState i s
  have hpage : ∀ a ∈ storedAt i s, 0x0100 ≤ a.toNat ∧ a.toNat ≤ 0x01FF :=
    fun a ha => pushSlots_in_page (hslots ▸ ha)
  refine ⟨⟨_, hexec, fun a hne => hpage a ?_, ?_⟩, ?_, hpage⟩
  · by_contra ha
    exact hne (exec_memRead_frame hexec ha)
  · rw [hsp, hslots, pushSlots_length]
  · rw [hslots]
    exact pushSlots_nodup s.sp (by omega)

end Sys2Proof.Machine
end

section
/-! PROOF. Memory as the program and the host see it: a load after a store, a fetch after a store, the host's reads and writes
(20_memory.md R31, R32, R42, R44, R46). -/

namespace Sys2Proof.Machine

/-- A store instruction completes with its register written at the effective address, and nothing else (R133 to R135). -/
theorem exec_store {i : Instr} {s : State} {ea : Addr} {b : Byte} (hea : effectiveAddress i.addressing s = some ea)
    (h : (i.mnemonic = .sta ∧ b = s.a) ∨ (i.mnemonic = .stx ∧ b = s.x) ∨ (i.mnemonic = .sty ∧ b = s.y)) :
    exec i s = .next (s.memWrite ea b) := by
  have htarget : s.target i.addressing = ea := by rw [State.target, hea, Option.getD_some]
  rw [exec_eq_resultState]
  rcases h with ⟨hmn, rfl⟩ | ⟨hmn, rfl⟩ | ⟨hmn, rfl⟩ <;> rw [hmn, resultState, htarget]

/-- A byte written at `pc` is the next byte fetched (R33, R44). -/
theorem State.fetch_memWrite_pc (s : State) (b : Byte) :
    (s.memWrite s.pc b).fetch = (b, { s.memWrite s.pc b with pc := s.pc + 1 }) := by
  rw [State.fetch, State.memWrite_pc, State.memRead_memWrite, if_pos rfl]

/-- Settles O11: the load reads the memory that the store wrote, and writes none itself. -/
theorem storeThenLoadReturnsTheByte : Obligations.StoreThenLoadReturnsTheByte := by
  intro s p q
  have hread (a : Addr) : (s.memWrite p s.a).memRead a = if a = p then s.a else s.memRead a :=
    State.memRead_memWrite s p a s.a
  exact ⟨s.memWrite p s.a, _, rfl, rfl, hread q, hread⟩

/-- Settles O12: there is no instruction buffer, so the fetch reads the byte that the store wrote. -/
theorem storeIsSeenByTheNextFetch : Obligations.StoreIsSeenByTheNextFetch := by
  intro i s b hea hstore
  exact ⟨_, exec_store hea hstore, s.fetch_memWrite_pc b⟩

/-- Settles O17: the host's write is one `MemWrite`, which keeps the registers, and power-on zeroes memory. -/
theorem hostMemoryInterface : Obligations.HostMemoryInterface := by
  intro s a b v r
  exact ⟨State.memRead_memWrite s a b v, rfl, rfl, powerOn_memRead r a⟩

end Sys2Proof.Machine
end

section
/-! PROOF. A step by the decoder's answer on the bytes at `pc`: the mapped and the unmapped opcode byte (30_encoding.md R53,
60_exceptions.md R191). -/

namespace Sys2Proof.Machine

/-- The decoder rejects the byte at `pc` when it is unmapped, whatever follows it (R55). -/
theorem decode_readBytes_of_unmapped {s : State} (h : opcodeForm (s.memRead s.pc) = none) :
    decode (s.readBytes s.pc 3) = .error (.illegalOpcode (s.memRead s.pc)) := by
  simp only [State.readBytes, decode, h]

/-- A step that fetches an unmapped byte faults with only that byte fetched (R191). -/
theorem step_of_unmapped {s : State} (h : opcodeForm (s.memRead s.pc) = none) :
    step s = .fault (.illegalOpcode (s.memRead s.pc) s.pc { s with pc := s.pc + 1 }) := by
  simp only [step, fetchInstr, State.fetch_fst, h]
  rfl

/-- Settles O6: a mapped byte always decodes, since three bytes are read, and an unmapped one is the fault's byte. -/
theorem stepFetchesDecodesAndRuns : Obligations.StepFetchesDecodesAndRuns := by
  intro s
  refine ⟨fun i rest => step_of_decode, ?_⟩
  cases hform : opcodeForm (s.memRead s.pc) with
  | none =>
    rw [decode_readBytes_of_unmapped hform]
    refine ⟨fun b hb => ?_, by simp⟩
    obtain rfl : s.memRead s.pc = b := DecodeError.illegalOpcode.inj (Except.error.inj hb)
    exact ⟨rfl, step_of_unmapped hform⟩
  | some form =>
    obtain ⟨rest, hdecode⟩ := decode_readBytes hform
    simp [hdecode]

end Sys2Proof.Machine
end

section
/-! PROOF. The push and the pull as arithmetic on the stack pointer (20_memory.md R48, R49). -/

namespace Sys2Proof.Machine

/-- The stack address of R12 in the form that the rules write it: 0x0100 + SP. -/
theorem stackAddr_eq_ofNat (sp : Byte) : stackAddr sp = BitVec.ofNat 16 (0x0100 + sp.toNat) := by
  rw [← stackAddr_toNat, BitVec.ofNat_toNat, BitVec.setWidth_eq]

/-- The decrement of SP wraps modulo 256 (R48). -/
theorem sp_sub_one_eq_ofNat (sp : Byte) : sp - 1 = BitVec.ofNat 8 (sp.toNat + 255) := by bv_omega

/-- The increment of SP wraps modulo 256 (R49). -/
theorem sp_add_one_eq_ofNat (sp : Byte) : sp + 1 = BitVec.ofNat 8 (sp.toNat + 1) := by bv_omega

/-- A pull right after a push returns the byte and the state with it still in memory, SP restored (R48, R49). -/
theorem State.pull_push (s : State) (v : Byte) : (s.push v).pull = (v, s.memWrite (stackAddr s.sp) v) := by
  have hsp : (s.push v).sp + 1 = s.sp := by rw [State.push_sp, BitVec.sub_add_cancel]
  rw [State.pull, hsp, State.memRead_push, if_pos rfl]
  rfl

/-- Settles O46: the two primitives by arithmetic, and one after the other. -/
theorem pushAndPullPrimitives : Obligations.PushAndPullPrimitives := by
  intro s v
  refine ⟨?_, ?_, by rw [State.pull_push], by rw [State.pull_push, State.memWrite_sp]⟩
  · rw [State.push, stackAddr_eq_ofNat, sp_sub_one_eq_ofNat]
  · rw [State.pull, stackAddr_eq_ofNat, sp_add_one_eq_ofNat, BitVec.toNat_ofNat]

end Sys2Proof.Machine
end

section
/-! PROOF. The encoder and the opcode table agree, so decode and encode are inverse, and the opcode byte fixes the row of R54
(30_encoding.md R50 to R54, R57). -/

namespace Sys2Proof

open Machine

/-- A property of every instruction of a form, read with every operand (R51). -/
def Form.ForAll (P : Instr → Prop) : Form → Prop
  | .f1 i => P i
  | .f2 mk => ∀ d8, P (mk d8)
  | .f3 mk => ∀ a16, P (mk a16)

/-- The instructions of a form are encoded as the byte `b` with the operand after it, low byte first (R51, R52). -/
def Form.EncodesUnder (b : Byte) : Form → Prop
  | .f1 i => encode i = [b]
  | .f2 mk => ∀ d8, encode (mk d8) = [b, d8]
  | .f3 mk => ∀ a16, encode (mk a16) = [b, lowByte a16, highByte a16]

/-- The opcode table leaves no instruction out: what holds of its entries with every operand holds of all (R54). -/
theorem instr_of_opcodeTable {P : Instr → Prop} (h : ∀ p ∈ opcodeTable, p.2.ForAll P) (i : Instr) : P i := by
  simp only [opcodeTable, opcodeRow0, opcodeRow1, opcodeRow2, opcodeRow3, opcodeRow4, opcodeRow5, opcodeRow6, opcodeRow7,
    opcodeRow8, opcodeRow9, opcodeRowA, opcodeRowB, opcodeRowC, opcodeRowD, opcodeRowE, opcodeRowF, Form.ForAll,
    List.forall_mem_append, List.forall_mem_cons, List.not_mem_nil, false_implies, implies_true, and_true] at h
  cases i <;> simp only [h]

/-- Row by row, the matrix that the decoder reads gives the encodings of R54's table by mnemonic. -/
theorem opcodeTable_encodesUnder : ∀ p ∈ opcodeTable, p.2.EncodesUnder p.1 := by
  simp only [opcodeTable, opcodeRow0, opcodeRow1, opcodeRow2, opcodeRow3, opcodeRow4, opcodeRow5, opcodeRow6, opcodeRow7,
    opcodeRow8, opcodeRow9, opcodeRowA, opcodeRowB, opcodeRowC, opcodeRowD, opcodeRowE, opcodeRowF,
    List.forall_mem_append, List.forall_mem_cons, List.not_mem_nil, false_implies, implies_true, and_true]
  simp only [Form.EncodesUnder, encode, Instr.opcode, Instr.addressing, Addressing.bytes, implies_true, and_self]

/-- The dispatcher finds each entry of the table, and no other (R50, R53). -/
theorem opcodeForm_eq_some_iff {b : Byte} {f : Form} : opcodeForm b = some f ↔ (b, f) ∈ opcodeTable :=
  ⟨findForm_mem, findForm_of_mem opcodeTable_nodup⟩

theorem opcodeForm_encodesUnder {b : Byte} {f : Form} (h : opcodeForm b = some f) : f.EncodesUnder b :=
  opcodeTable_encodesUnder _ (opcodeForm_eq_some_iff.mp h)

/-- The decoder undoes the encoder on the instructions of an entry: it takes just the operand bytes of the format (R51). -/
theorem decode_encode_of_mem {b : Byte} {f : Form} (h : (b, f) ∈ opcodeTable) :
    f.ForAll fun i => ∀ rest, decode (encode i ++ rest) = .ok (i, rest) := by
  have hform := opcodeForm_eq_some_iff.mpr h
  have hencode := opcodeForm_encodesUnder hform
  cases f with
  | f1 i =>
    intro rest
    rw [hencode]
    simp [decode, hform]
  | f2 mk =>
    intro d8 rest
    rw [hencode d8]
    simp [decode, hform]
  | f3 mk =>
    intro a16 rest
    rw [hencode a16]
    simp [decode, hform]

/-- Settles O2: every instruction belongs to an entry of the table, and there the decoder undoes the encoder. -/
theorem decodeOfEncode : Obligations.DecodeOfEncode :=
  instr_of_opcodeTable fun _ => decode_encode_of_mem

/-- Settles O3: a byte string decodes by the form of its first byte, whose instructions are encoded under that byte. -/
theorem encodeOfDecode : Obligations.EncodeOfDecode := by
  intro bs i rest h
  unfold decode at h
  split at h
  case h_1 => cases h
  case h_2 =>
    split at h
    case h_1 => cases h
    case h_2 hform =>
      cases h
      rw [opcodeForm_encodesUnder hform]
      rfl
    case h_3 hform =>
      split at h <;> cases h
      rw [opcodeForm_encodesUnder hform]
      rfl
    case h_4 hform =>
      split at h <;> cases h
      simp [opcodeForm_encodesUnder hform (joinBytes _ _)]

/-- The samples stand in the order of the opcode table, each under its own opcode byte. -/
theorem samples_opcode : samples.map Instr.opcode = opcodeTable.map Prod.fst := by decide +kernel

/-- No opcode byte stands for two samples (R54). -/
theorem eq_of_samples_opcode_eq {j k : Instr} (hj : j ∈ samples) (hk : k ∈ samples) (h : j.opcode = k.opcode) :
    j = k := by
  have hnodup : (samples.map Instr.opcode).Nodup := by
    rw [samples_opcode]
    exact opcodeTable_nodup
  exact List.inj_on_of_nodup_map hnodup hj hk h

/-- Settles O4: two instructions of one opcode byte have one sample, which has the mnemonic and the mode of both. -/
theorem opcodeByteSelectsOperationAndMode : Obligations.OpcodeByteSelectsOperationAndMode := by
  intro i j hop
  obtain ⟨k, hk, hk_mnemonic, hk_mode, hk_op⟩ := exists_sample i
  obtain ⟨l, hl, hl_mnemonic, hl_mode, hl_op⟩ := exists_sample j
  obtain rfl : k = l := eq_of_samples_opcode_eq hk hl (hk_op.trans (hop.trans hl_op.symm))
  have hmode : i.addressing.mode = j.addressing.mode := hk_mode.symm.trans hl_mode
  exact ⟨hk_mnemonic.symm.trans hl_mnemonic, hmode, congrArg Mode.length hmode⟩

/-- Settles O1: the decoder run on each word. -/
theorem knownWordsDecode : Obligations.KnownWordsDecode :=
  ⟨rfl, rfl, rfl, rfl, rfl, rfl, rfl, rfl, rfl, rfl, rfl, rfl, rfl, rfl, rfl, rfl, rfl⟩

/-- An instruction is its opcode byte and the operand bytes of its mode (R51, R57). -/
theorem Addressing.bytes_length_add_one (am : Addressing) : am.bytes.length + 1 = am.mode.length := by
  cases am <;> rfl

theorem encode_length (i : Instr) : (encode i).length = i.length := i.addressing.bytes_length_add_one

/-- The three lengths of R51, by the modes that have them. -/
theorem Mode.length_eq_ite (md : Mode) :
    md.length = if md ∈ [Mode.imp, .acc] then 1
      else if md ∈ [Mode.imm, .zp, .zpx, .zpy, .izx, .izy, .rel] then 2 else 3 := by
  cases md <;> rfl

/-- Settles O5: the opcode byte comes first, and the mode alone says how many operand bytes follow. -/
theorem encodingLengthByMode : Obligations.EncodingLengthByMode :=
  fun i => ⟨rfl, encode_length i, (encode_length i).trans i.addressing.mode.length_eq_ite⟩

end Sys2Proof
end

section
/-! PROOF. The unmapped opcode bytes, and the answer of a call of `step()` on a mapped and on an unmapped one (30_encoding.md
R53, R55; 60_exceptions.md R191; 70_reset_and_hazards.md R213). -/

namespace Sys2Proof.Machine

/-- R55's list is what R54's table leaves over of the 256 values of a byte, in rising order. -/
theorem illegalBytes_toNat :
    illegalBytes.map BitVec.toNat = (List.range 256).filter (· ∉ (opcodeTable.map Prod.fst).map BitVec.toNat) := by
  decide +kernel

/-- The dispatcher finds nothing just for the bytes of R55's list. -/
theorem opcodeForm_eq_none_iff (b : Byte) : opcodeForm b = none ↔ b ∈ illegalBytes := by
  have mem_iff (l : List Byte) : b ∈ l ↔ b.toNat ∈ l.map BitVec.toNat :=
    (List.mem_map_of_injective fun _ _ => BitVec.eq_of_toNat_eq).symm
  rw [opcodeForm, findForm_eq_none, mem_iff, mem_iff, illegalBytes_toNat, List.mem_filter, List.mem_range,
    decide_eq_true_iff]
  exact (and_iff_right b.isLt).symm

/-- Settles O7: the list is the complement of the table, and a step that fetches one of its bytes faults. -/
theorem unmappedBytesFault : Obligations.UnmappedBytesFault :=
  ⟨rfl, opcodeForm_eq_none_iff, fun _ h => step_of_unmapped ((opcodeForm_eq_none_iff _).mpr h)⟩

/-- A call on an unmapped byte answers `Fault(opcode, pc0)` and leaves `pc` one past the byte (R191). -/
theorem hostStep_of_unmapped {s : State} (h : opcodeForm (s.memRead s.pc) = none) :
    hostStep s = (.fault (s.memRead s.pc) s.pc, { s with pc := s.pc + 1 }) := by
  rw [hostStep, step_of_unmapped h]

/-- A call on a step that answers a next state answers `Ok` with that state (R213). -/
theorem hostStep_of_next {s t : State} (h : step s = .next t) : hostStep s = (.ok, t) := by
  rw [hostStep, h]

/-- A step on a mapped byte completes: the bytes decode, and every instruction completes (R53). -/
theorem safeStep_of_mapped {s : State} {f : Form} (h : opcodeForm (s.memRead s.pc) = some f) : SafeStep s := by
  obtain ⟨rest, hdecode⟩ := decode_readBytes h
  exact ⟨_, (step_of_decode hdecode).trans (exec_eq_resultState _ _)⟩

/-- Settles O8: the byte at `pc` is unmapped or mapped, and the call answers the fault or `Ok`. -/
theorem stepAlwaysAnswers : Obligations.StepAlwaysAnswers := by
  intro s
  split
  case isTrue hunmapped => exact hostStep_of_unmapped ((opcodeForm_eq_none_iff _).mpr hunmapped)
  case isFalse hmapped =>
    obtain ⟨form, hform⟩ := Option.ne_none_iff_exists'.mp (mt (opcodeForm_eq_none_iff _).mp hmapped)
    obtain ⟨t, hstep⟩ := safeStep_of_mapped hform
    exact ⟨t, hstep, hostStep_of_next hstep⟩

end Sys2Proof.Machine
end

section
/-! PROOF. The addressing modes as arithmetic on the numbers of the operand and of the registers: the zero page wraps modulo 256
and the address space modulo 65536 (40_addressing_modes.md R70 to R81; 20_memory.md R34, R35). -/

namespace Sys2Proof

/-- An address is known by its number. -/
theorem eq_ofNat_of_toNat_eq {v : Addr} {n : Nat} (h : v.toNat = n) : v = BitVec.ofNat 16 n :=
  (BitVec.toNat_eq_nat.mp h).2

/-- A number is cut to 8 bits before it is widened, so it denotes a byte of page zero (R34). -/
theorem zext16_ofNat (k : Nat) : zext16 (BitVec.ofNat 8 k) = BitVec.ofNat 16 (k % 256) :=
  eq_ofNat_of_toNat_eq ((zext16_toNat _).trans (BitVec.toNat_ofNat k 8))

/-- The sum of two bytes is cut to 8 bits before it is widened (R75, R76, R80). -/
theorem zext16_add (p q : Byte) : zext16 (p + q) = BitVec.ofNat 16 ((p.toNat + q.toNat) % 256) := by
  rw [BitVec.add_def, zext16_ofNat]

/-- An index is added as an unsigned number, modulo 65536 (R78, R79, R81). -/
theorem add_zext16 (v : Addr) (b : Byte) : v + zext16 b = BitVec.ofNat 16 ((v.toNat + b.toNat) % 65536) := by
  apply eq_ofNat_of_toNat_eq
  rw [BitVec.toNat_add, zext16_toNat]

/-- A byte widened with zero bits is an address of page zero. -/
theorem zext16_lt (b : Byte) : (zext16 b).toNat < 0x0100 := by
  rw [zext16_toNat]
  exact b.isLt

namespace Machine

/-- The value of the byte of page zero that the number `k` denotes, the page wrapping modulo 256 (R34). -/
def State.zeroPageByte (s : State) (k : Nat) : Nat := (s.memRead (BitVec.ofNat 16 (k % 256))).toNat

/-- Both bytes of a pointer lie in page zero, the low byte first (R35, R80, R81). -/
theorem zeroPagePointer_ofNat_toNat (s : State) (k : Nat) :
    (zeroPagePointer s (BitVec.ofNat 8 k)).toNat = s.zeroPageByte (k + 1) * 256 + s.zeroPageByte k := by
  have hnext : BitVec.ofNat 8 k + 1 = BitVec.ofNat 8 (k + 1) := (BitVec.ofNat_add k 1).symm
  rw [zeroPagePointer, State.read16_toNat, hnext, zext16_ofNat, zext16_ofNat]
  rfl

/-- The pointer at a byte of page zero, as arithmetic on the byte's number (R81). -/
theorem zeroPagePointer_toNat (s : State) (p : Byte) :
    (zeroPagePointer s p).toNat = s.zeroPageByte (p.toNat + 1) * 256 + s.zeroPageByte p.toNat := by
  rw [← zeroPagePointer_ofNat_toNat, BitVec.ofNat_toNat, BitVec.setWidth_eq]

/-- A mode with an effective address delivers the byte read there (R70). -/
theorem operandByte_of_effectiveAddress {am : Addressing} {s : State} {ea : Addr} (h : effectiveAddress am s = some ea) :
    operandByte am s = some (s.memRead ea) := by
  cases am
  case acc | imm => cases h
  all_goals exact congrArg (Option.map s.memRead) h

/-- Settles O18: each of the three is a byte that is widened, and the index is added before that. -/
theorem zeroPageModes : Obligations.ZeroPageModes := by
  intro s d8
  have hzp : zext16 d8 = BitVec.ofNat 16 d8.toNat := eq_ofNat_of_toNat_eq (zext16_toNat d8)
  refine ⟨congrArg some hzp, congrArg some (zext16_add d8 s.x), congrArg some (zext16_add d8 s.y), ?_⟩
  simp only [List.forall_mem_cons, effectiveAddress, Option.some.injEq, forall_eq']
  exact ⟨zext16_lt d8, zext16_lt (d8 + s.x), zext16_lt (d8 + s.y), List.forall_mem_nil _⟩

/-- Settles O19: the joined bytes are the number hi * 256 + lo, and an index is added to that number. -/
theorem absoluteModes : Obligations.AbsoluteModes := by
  intro s lo hi base
  have hindexed (b : Byte) : joinBytes hi lo + zext16 b = BitVec.ofNat 16 ((base + b.toNat) % 65536) := by
    rw [add_zext16, joinBytes_toNat]
  have habs : joinBytes hi lo = BitVec.ofNat 16 base := eq_ofNat_of_toNat_eq (joinBytes_toNat hi lo)
  exact ⟨rfl, congrArg some habs, congrArg some (hindexed s.x), congrArg some (hindexed s.y)⟩

/-- Settles O20: IZX adds X to the pointer's address, IZY adds Y to the pointer. -/
theorem indirectModes : Obligations.IndirectModes := by
  intro s d8 zp
  have hizx : eaIzx s d8 =
      BitVec.ofNat 16 (zp (d8.toNat + s.x.toNat + 1) * 256 + zp (d8.toNat + s.x.toNat)) := by
    rw [eaIzx, BitVec.add_def]
    exact eq_ofNat_of_toNat_eq (zeroPagePointer_ofNat_toNat s _)
  have hizy : eaIzy s d8 = BitVec.ofNat 16 ((zp (d8.toNat + 1) * 256 + zp d8.toNat + s.y.toNat) % 65536) := by
    rw [eaIzy, add_zext16, zeroPagePointer_toNat]
    rfl
  exact ⟨congrArg some hizx, congrArg some hizy⟩

/-- Settles O21: only IMM and ACC deliver a byte that is not read at an effective address. -/
theorem operandOfEachMode : Obligations.OperandOfEachMode := by
  intro s d8 a16
  refine ⟨rfl, rfl, fun am ea => operandByte_of_effectiveAddress, ?_⟩
  simp only [List.forall_mem_cons]
  exact ⟨rfl, rfl, rfl, List.forall_mem_nil _⟩

/-- Settles O54: every instruction completes, and its memory differs by the writes at `storedAt` alone. -/
theorem memoryWrittenByEachInstruction : Obligations.MemoryWrittenByEachInstruction := by
  intro i s
  have hexec := exec_eq_resultState i s
  exact ⟨_, hexec, fun _ => exec_memRead_frame hexec⟩

end Machine

end Sys2Proof
end

section
/-! PROOF. Addition with carry, subtraction with borrow, logic, compares and the bit test as arithmetic on the operand byte, in
every form (41_alu.md R90 to R99). -/

namespace Sys2Proof.Machine

/-- An instruction reads its operand when its mnemonic has an operand byte in each of its modes and its result state is
given by that byte (R70). -/
theorem readsOperand_of_mnemonic {mn : Mnemonic} {i : Instr} {s : State} {result : Byte → State}
    (hmodes : ∀ md ∈ mn.modes, md ∉ [Mode.imp, .rel, .ind])
    (hresult : ∀ am, resultState mn am s = result (s.operand am)) (hmn : i.mnemonic = mn) :
    ReadsOperand i s result := by
  subst hmn
  exact ⟨_, operandByte_of_modes s hmodes, by rw [exec_eq_resultState, hresult]⟩

/-- `SetZN(v)` by comparison and arithmetic (R18). -/
theorem setZN_eq_zn (f : Flags) (v : Byte) : f.setZN v = zn f v := by
  rw [Flags.setZN, zn, bit7_eq]
  rfl

theorem toNat_eq_bitNat (b : Bool) : b.toNat = bitNat b := by cases b <;> rfl

theorem bitNat_le_one (b : Bool) : bitNat b ≤ 1 := by cases b <;> decide

/-- `V` as the model has it is the conjunction of R90. -/
theorem overflow_eq_decide (p q r : Bool) : (p == q && r != p) = decide (p = q ∧ r ≠ p) := by
  revert p q r
  decide

/-- The sum and the flags of ADC as arithmetic on the total that is never cut (R90). -/
theorem aluAdc_eq (a m : Byte) (f : Flags) {total : Nat} {r : Byte} (htotal : total = a.toNat + m.toNat + bitNat f.c)
    (hr : r = BitVec.ofNat 8 total) :
    aluAdc a m f =
      (r, { zn f r with
        c := decide (256 ≤ total), v := decide (a.getLsbD 7 = m.getLsbD 7 ∧ r.getLsbD 7 ≠ a.getLsbD 7) }) := by
  subst hr htotal
  simp only [aluAdc, zn, sum9_setWidth, bit8_eq, sum9_toNat, toNat_eq_bitNat, overflow_eq_decide, ← bit7_eq]
  rfl

/-- Settles O22: the 9-bit sum is the total, and its bit 8 is the carry. -/
theorem adcAddsWithCarry : Obligations.AdcAddsWithCarry := by
  refine ⟨encodingLine_of_samples (by decide +kernel), fun i s => readsOperand_of_mnemonic (by decide) fun am => ?_⟩
  rw [resultState, State.accumulate, aluAdc_eq s.a _ s.flags rfl rfl]

/-- The difference and the flags of SBC as arithmetic: the complement turns the borrow into the carry out (R91). -/
theorem aluSbc_eq (a m : Byte) (f : Flags) {borrow : Nat} {r : Byte} (hborrow : borrow = 1 - bitNat f.c)
    (hr : r = BitVec.ofInt 8 (a.toNat - m.toNat - borrow)) :
    aluSbc a m f =
      (r, { zn f r with
        c := decide (m.toNat + borrow ≤ a.toNat)
        v := decide (a.getLsbD 7 ≠ m.getLsbD 7 ∧ r.getLsbD 7 ≠ a.getLsbD 7) }) := by
  have hm := m.isLt
  have hc := bitNat_le_one f.c
  have hnot : (~~~m).toNat = 255 - m.toNat := BitVec.toNat_not
  have hwrap : ((a.toNat + (~~~m).toNat + bitNat f.c : Nat) : Int) = a.toNat - m.toNat - borrow + 256 := by omega
  have hsum : r = BitVec.ofNat 8 (a.toNat + (~~~m).toNat + bitNat f.c) := by
    rw [hr, ← BitVec.ofInt_natCast, hwrap, BitVec.ofInt_add]
    simp
  have hcarry : 256 ≤ a.toNat + (~~~m).toNat + bitNat f.c ↔ m.toNat + borrow ≤ a.toNat := by omega
  have hsign : (~~~m).getLsbD 7 = !m.getLsbD 7 := by simp
  rw [aluSbc, aluAdc_eq a (~~~m) f rfl hsum]
  simp only [hcarry, hsign, Bool.eq_not, ne_eq]

/-- Settles O23: R90 with the operand complemented is the subtraction. -/
theorem sbcSubtractsWithBorrow : Obligations.SbcSubtractsWithBorrow := by
  refine ⟨encodingLine_of_samples (by decide +kernel), fun i s => readsOperand_of_mnemonic (by decide) fun am => ?_⟩
  rw [resultState, State.accumulate, aluSbc_eq s.a _ s.flags rfl rfl]

/-- `V` after ADC says that the signed sum left the range of a byte (R99). -/
theorem aluAdc_v_iff (a m : Byte) (f : Flags) :
    (aluAdc a m f).2.v = true ↔
      ¬(-128 ≤ a.toInt + m.toInt + bitNat f.c ∧ a.toInt + m.toInt + bitNat f.c ≤ 127) := by
  have ha := a.isLt
  have hm := m.isLt
  have hc := bitNat_le_one f.c
  rw [aluAdc_eq a m f rfl rfl]
  simp only [bit7_eq, decide_eq_true_eq, decide_eq_decide, ne_eq, BitVec.toNat_ofNat, BitVec.toInt_eq_toNat_cond]
  split <;> split <;> omega

/-- The complement of a byte as a signed number. -/
theorem not_toInt (m : Byte) : (~~~m).toInt = -1 - m.toInt := by
  have hm := m.isLt
  have hnot : (~~~m).toNat = 255 - m.toNat := BitVec.toNat_not
  simp only [BitVec.toInt_eq_toNat_cond]
  split <;> split <;> omega

/-- `V` after SBC says that the signed difference left the range of a byte (R99). -/
theorem aluSbc_v_iff (a m : Byte) (f : Flags) :
    (aluSbc a m f).2.v = true ↔
      ¬(-128 ≤ a.toInt - m.toInt - (1 - bitNat f.c) ∧ a.toInt - m.toInt - (1 - bitNat f.c) ≤ 127) := by
  have hsum : a.toInt - m.toInt - (1 - bitNat f.c) = a.toInt + (~~~m).toInt + bitNat f.c := by
    rw [not_toInt]
    ring
  rw [hsum]
  exact aluAdc_v_iff a (~~~m) f

/-- Settles O24: the signed reading of `V`, once for the sum and once for the sum with the complement. -/
theorem overflowFlagIsSignedOverflow : Obligations.OverflowFlagIsSignedOverflow := by
  intro i s
  constructor <;> intro hmn
  · obtain ⟨m, hm, hexec⟩ : ReadsOperand i s (s.accumulate aluAdc) :=
      readsOperand_of_mnemonic (by decide) (fun _ => rfl) hmn
    exact ⟨m, _, hm, hexec, aluAdc_v_iff s.a m s.flags⟩
  · obtain ⟨m, hm, hexec⟩ : ReadsOperand i s (s.accumulate aluSbc) :=
      readsOperand_of_mnemonic (by decide) (fun _ => rfl) hmn
    exact ⟨m, _, hm, hexec, aluSbc_v_iff s.a m s.flags⟩

/-- Settles O27: each is its bit operation, and `SetZN` is arithmetic. -/
theorem logicCombinesWithAccumulator : Obligations.LogicCombinesWithAccumulator := by
  refine ⟨encodingLine_of_samples (by decide +kernel), encodingLine_of_samples (by decide +kernel),
    encodingLine_of_samples (by decide +kernel), fun i s => ?_⟩
  simp only [← setZN_eq_zn]
  exact ⟨readsOperand_of_mnemonic (by decide) fun _ => rfl, readsOperand_of_mnemonic (by decide) fun _ => rfl,
    readsOperand_of_mnemonic (by decide) fun _ => rfl⟩

/-- The flags of a compare by comparison of numbers (R95 to R97). -/
theorem aluCompare_eq (r m : Byte) (f : Flags) :
    aluCompare r m f =
      { f with c := decide (m.toNat ≤ r.toNat), z := decide (r = m), n := decide (128 ≤ (r - m).toNat) } := by
  rw [aluCompare, bit7_eq]
  rfl

/-- Settles O28: the compare is the same for each of the three registers. -/
theorem comparesSetFlagsOnly : Obligations.ComparesSetFlagsOnly := by
  refine ⟨encodingLine_of_samples (by decide +kernel), encodingLine_of_samples (by decide +kernel),
    encodingLine_of_samples (by decide +kernel), fun i s => ?_⟩
  simp only [← aluCompare_eq]
  exact ⟨readsOperand_of_mnemonic (by decide) fun _ => rfl, readsOperand_of_mnemonic (by decide) fun _ => rfl,
    readsOperand_of_mnemonic (by decide) fun _ => rfl⟩

/-- The flags of BIT by arithmetic on the operand (R98). -/
theorem aluBit_eq (a m : Byte) (f : Flags) :
    aluBit a m f =
      { f with z := decide (a &&& m = 0), n := decide (128 ≤ m.toNat), v := decide (m.toNat / 64 % 2 = 1) } := by
  rw [aluBit, bit7_eq, getLsbD_eq_div_mod m 6]
  rfl

/-- Settles O29: `N` and `V` are bits 7 and 6 of the operand, by arithmetic. -/
theorem bitTestsTheOperand : Obligations.BitTestsTheOperand := by
  refine ⟨encodingLine_of_samples (by decide +kernel), fun i s => ?_⟩
  simp only [← aluBit_eq]
  exact readsOperand_of_mnemonic (by decide) fun _ => rfl

end Sys2Proof.Machine
end

section
/-! PROOF. The decimal flag is stored and takes no part in any result (41_alu.md R100). The addressing modes see no flag at all, so
an instruction can see one only in its own operation. -/

namespace Sys2Proof.Machine

/-- No addressing mode reads a flag (R71 to R81). -/
theorem effectiveAddress_flags (am : Addressing) (s : State) (f : Flags) :
    effectiveAddress am { s with flags := f } = effectiveAddress am s := by
  cases am <;> rfl

theorem State.operand_flags (am : Addressing) (s : State) (f : Flags) :
    State.operand { s with flags := f } am = s.operand am := by
  cases am <;> rfl

theorem State.target_flags (am : Addressing) (s : State) (f : Flags) :
    State.target { s with flags := f } am = s.target am := by
  rw [State.target, effectiveAddress_flags]
  rfl

theorem State.jumpTarget_flags (am : Addressing) (s : State) (f : Flags) :
    State.jumpTarget { s with flags := f } am = s.jumpTarget am := by
  cases am <;> rfl

/-- The state `s` with `D` set to `b`. -/
def State.withD (s : State) (b : Bool) : State := { s with flags := { s.flags with d := b } }

/-- Every mnemonic but PHP and BRK, which pack the flags, commutes with a change of `D`, unless it writes `D` itself, and
then its result does not see the change. -/
theorem resultState_withD {mn : Mnemonic} (hphp : mn ≠ .php) (hbrk : mn ≠ .brk) (am : Addressing) (s : State) (b : Bool) :
    resultState mn am (s.withD b) =
      if mn ∈ [Mnemonic.sed, .cld, .plp, .rti] then resultState mn am s else (resultState mn am s).withD b := by
  cases mn
  case php => exact absurd rfl hphp
  case brk => exact absurd rfl hbrk
  case sed | cld | plp | rti => rfl
  case adc | sbc | and | ora | eor | cmp | cpx | cpy | bit | lda | ldx | ldy =>
    simp only [resultState, State.withD, State.operand_flags]
    rfl
  case sta | stx | sty | jsr =>
    simp only [resultState, State.withD, State.target_flags]
    rfl
  case asl | lsr | rol | ror | inc | dec =>
    simp only [resultState, State.modify, State.withD, State.operand_flags, effectiveAddress_flags]
    rfl
  case bcc | bcs | beq | bne | bmi | bpl | bvc | bvs | jmp =>
    simp only [resultState, State.branch, State.withD, State.jumpTarget_flags]
    rfl
  all_goals rfl

/-- The column of `D` in R24's table. -/
theorem flagRow_d_eq_dash {mn : Mnemonic} (h : mn ∉ [Mnemonic.sed, .cld, .plp, .rti]) : (flagRow mn).d = .dash := by
  cases mn
  case sed | cld | plp | rti => exact absurd h (by decide)
  all_goals rfl

/-- Settles O25: the operations pass `D` on, and R24's table lists its writers. -/
theorem decimalFlagIsOnlyStored : Obligations.DecimalFlagIsOnlyStored := by
  constructor
  · intro i s b hphp hbrk
    refine ⟨_, exec_eq_resultState i s, ?_⟩
    rw [exec_eq_resultState]
    exact congrArg _ (resultState_withD hphp hbrk i.addressing s b)
  · intro i s hmn
    refine ⟨_, exec_eq_resultState i s, ?_⟩
    have hrow : (flagRow i.mnemonic).d.Holds .d i s (resultState i.mnemonic i.addressing s) :=
      resultState_flagRow i s .d
    rwa [flagRow_d_eq_dash hmn] at hrow

end Sys2Proof.Machine
end

section
/-! PROOF. Shifts, rotates, increments and decrements as arithmetic on the operand, in `A`, in memory and in an index register
(42_shift_incdec.md R110 to R119). A rotate and the rotate the other way undo each other on the operand and `C` together. -/

namespace Sys2Proof.Machine

/-- In mode ACC a modification is that of `A` (R72). -/
theorem State.modify_acc (s : State) (op : Byte → Flags → Byte × Flags) : s.modify op .acc = s.modifyA op := rfl

/-- In a mode with an effective address a modification is that of the byte there (R70). -/
theorem State.modify_of_effectiveAddress {am : Addressing} {s : State} {ea : Addr} (h : effectiveAddress am s = some ea)
    (op : Byte → Flags → Byte × Flags) : s.modify op am = s.modifyMem op ea := by
  have hoperand : s.operand am = s.memRead ea := by
    rw [State.operand, operandByte_of_effectiveAddress h, Option.getD_some]
  cases am
  case acc => cases h
  all_goals simp only [State.modify, h, hoperand]; rfl

/-- The modes of the shifts, rotates and memory steps are ACC and four with an effective address (R54, R70). -/
theorem acc_or_effectiveAddress {am : Addressing} (h : am.mode ∈ [Mode.acc, .zp, .zpx, .abs, .abx]) (s : State) :
    am = .acc ∨ ∃ ea, effectiveAddress am s = some ea := by
  cases am
  case acc => exact .inl rfl
  case zp | zpx | abs | abx => exact .inr ⟨_, rfl⟩
  all_goals exact absurd h (by simp [Addressing.mode])

/-- An instruction modifies its operand when its mnemonic has the modes of such an instruction and its result state is the
modification by an operation with that result and those flags (R70, R84). -/
theorem modifiesOperand_of_mnemonic {mn : Mnemonic} {op : Byte → Flags → Byte × Flags} {i : Instr} {s : State}
    {result : Byte → Byte} {flags : Byte → Flags}
    (hmodes : ∀ md ∈ mn.modes, md ∈ [Mode.acc, .zp, .zpx, .abs, .abx])
    (hresult : ∀ am, resultState mn am s = s.modify op am) (hop : ∀ m, op m s.flags = (result m, flags m))
    (hmn : i.mnemonic = mn) : ModifiesOperand i s result flags := by
  subst hmn
  have hexec : exec i s = .next (s.modify op i.addressing) := by rw [exec_eq_resultState, hresult]
  rcases acc_or_effectiveAddress (hmodes _ (mode_mem_modes i)) s with hacc | ⟨ea, hea⟩
  · refine .inl ⟨hacc, ?_⟩
    rw [hexec, hacc, State.modify_acc, State.modifyA, hop]
  · refine .inr ⟨ea, hea, ?_⟩
    rw [hexec, State.modify_of_effectiveAddress hea, State.modifyMem, hop]

/-! The operations as arithmetic. -/

theorem shiftLeft_one_eq_ofNat (m : Byte) : m <<< 1 = BitVec.ofNat 8 (2 * m.toNat) := by
  apply BitVec.eq_of_toNat_eq
  rw [BitVec.toNat_shiftLeft, Nat.shiftLeft_eq, BitVec.toNat_ofNat, pow_one, mul_comm]

theorem ushiftRight_one_eq_ofNat (m : Byte) : m >>> 1 = BitVec.ofNat 8 (m.toNat / 2) := by
  apply BitVec.eq_of_toNat_eq
  have hm := m.isLt
  rw [BitVec.toNat_ushiftRight, Nat.shiftRight_eq_div_pow, BitVec.toNat_ofNat, pow_one]
  omega

theorem bitByte_eq_ofNat (b : Bool) : bitByte b = BitVec.ofNat 8 (bitNat b) := by cases b <;> rfl

/-- Bit 0 of a byte, by its parity. -/
theorem bit0_eq (m : Byte) : m.getLsbD 0 = decide (m.toNat % 2 = 1) := by
  rw [getLsbD_eq_div_mod, pow_zero, Nat.div_one]

/-- The bit that enters on the right meets a 0. -/
theorem shiftLeft_or_bitByte (m : Byte) (b : Bool) :
    m <<< 1 ||| bitByte b = BitVec.ofNat 8 (2 * m.toNat + bitNat b) := by
  have hdisjoint : m <<< 1 &&& bitByte b = 0#8 := by
    ext k hk
    cases k <;> simp [bitByte]
  rw [← BitVec.add_eq_or_of_and_eq_zero _ _ hdisjoint, shiftLeft_one_eq_ofNat, bitByte_eq_ofNat, ← BitVec.ofNat_add]

/-- The bit that enters on the left meets a 0. -/
theorem ushiftRight_or_bitByte (m : Byte) (b : Bool) :
    m >>> 1 ||| bitByte b <<< 7 = BitVec.ofNat 8 (m.toNat / 2 + 128 * bitNat b) := by
  have hhigh : bitByte b <<< 7 = BitVec.ofNat 8 (128 * bitNat b) := by cases b <;> rfl
  have hdisjoint : m >>> 1 &&& bitByte b <<< 7 = 0#8 := by
    ext k hk
    rcases Nat.lt_or_ge k 7 with hlow | hseven
    · simp [hlow]
    · simp [BitVec.getLsbD_of_ge m (1 + k) (by omega)]
  rw [← BitVec.add_eq_or_of_and_eq_zero _ _ hdisjoint, ushiftRight_one_eq_ofNat, hhigh, ← BitVec.ofNat_add]

/-- ASL as arithmetic (R110). -/
theorem aluAsl_eq (m : Byte) (f : Flags) {r : Byte} (hr : r = BitVec.ofNat 8 (2 * m.toNat)) :
    aluAsl m f = (r, { zn f r with c := decide (128 ≤ m.toNat) }) := by
  rw [hr, ← shiftLeft_one_eq_ofNat, ← bit7_eq, ← setZN_eq_zn]
  rfl

/-- LSR as arithmetic (R111). -/
theorem aluLsr_eq (m : Byte) (f : Flags) {r : Byte} (hr : r = BitVec.ofNat 8 (m.toNat / 2)) :
    aluLsr m f = (r, { zn f r with c := decide (m.toNat % 2 = 1) }) := by
  rw [hr, ← ushiftRight_one_eq_ofNat, ← bit0_eq, ← setZN_eq_zn]
  rfl

/-- ROL as arithmetic (R112). -/
theorem aluRol_eq (m : Byte) (f : Flags) {r : Byte} (hr : r = BitVec.ofNat 8 (2 * m.toNat + bitNat f.c)) :
    aluRol m f = (r, { zn f r with c := decide (128 ≤ m.toNat) }) := by
  rw [hr, ← shiftLeft_or_bitByte, ← bit7_eq, ← setZN_eq_zn]
  rfl

/-- ROR as arithmetic (R113). -/
theorem aluRor_eq (m : Byte) (f : Flags) {r : Byte} (hr : r = BitVec.ofNat 8 (m.toNat / 2 + 128 * bitNat f.c)) :
    aluRor m f = (r, { zn f r with c := decide (m.toNat % 2 = 1) }) := by
  rw [hr, ← ushiftRight_or_bitByte, ← bit0_eq, ← setZN_eq_zn]
  rfl

/-- The increment as arithmetic (R114). -/
theorem aluInc_eq (m : Byte) (f : Flags) :
    aluInc m f = (BitVec.ofNat 8 (m.toNat + 1), zn f (BitVec.ofNat 8 (m.toNat + 1))) := by
  have hr : m + 1 = BitVec.ofNat 8 (m.toNat + 1) := by simp [BitVec.ofNat_add]
  rw [aluInc, setZN_eq_zn, hr]

/-- The decrement as arithmetic on integers (R115). -/
theorem aluDec_eq (m : Byte) (f : Flags) :
    aluDec m f = (BitVec.ofInt 8 (m.toNat - 1), zn f (BitVec.ofInt 8 (m.toNat - 1))) := by
  have hr : m - 1 = BitVec.ofInt 8 (m.toNat - 1) := by
    rw [sub_eq_add_neg, sub_eq_add_neg, BitVec.ofInt_add]
    simp
  rw [aluDec, setZN_eq_zn, hr]

/-- Settles O30: the logical shifts are doubling and halving, in both classes of operand. -/
theorem shiftsMoveOneBit : Obligations.ShiftsMoveOneBit := by
  refine ⟨encodingLine_of_samples (by decide +kernel), encodingLine_of_samples (by decide +kernel), fun i s => ⟨?_, ?_⟩⟩
  · exact modifiesOperand_of_mnemonic (by decide) (fun _ => rfl) fun m => aluAsl_eq m s.flags rfl
  · exact modifiesOperand_of_mnemonic (by decide) (fun _ => rfl) fun m => aluLsr_eq m s.flags rfl

/-- Settles O31: the carry enters at the bit that the shift leaves empty, so that it is added. -/
theorem rotatesGoThroughCarry : Obligations.RotatesGoThroughCarry := by
  refine ⟨encodingLine_of_samples (by decide +kernel), encodingLine_of_samples (by decide +kernel), fun i s => ⟨?_, ?_⟩⟩
  · exact modifiesOperand_of_mnemonic (by decide) (fun _ => rfl) fun m => aluRol_eq m s.flags rfl
  · exact modifiesOperand_of_mnemonic (by decide) (fun _ => rfl) fun m => aluRor_eq m s.flags rfl

/-- Settles O33: INC and DEC are the steps by one, and their operations pass `C` and `V` on. -/
theorem incAndDecOfMemory : Obligations.IncAndDecOfMemory := by
  refine ⟨encodingLine_of_samples (by decide +kernel), encodingLine_of_samples (by decide +kernel), fun i s => ⟨?_, ?_⟩⟩
  · exact modifiesOperand_of_mnemonic (by decide) (fun _ => rfl) fun m => aluInc_eq m s.flags
  · exact modifiesOperand_of_mnemonic (by decide) (fun _ => rfl) fun m => aluDec_eq m s.flags

/-- Settles O34: the operations of INC and DEC on an index register. -/
theorem incAndDecOfIndexRegisters : Obligations.IncAndDecOfIndexRegisters := by
  refine ⟨encodingLine_of_samples (by decide +kernel), encodingLine_of_samples (by decide +kernel),
    encodingLine_of_samples (by decide +kernel), encodingLine_of_samples (by decide +kernel), fun s => ?_⟩
  simp only [exec_eq_resultState, Instr.mnemonic, resultState, State.modifyX, State.modifyY, aluInc_eq, aluDec_eq,
    and_self]

/-! Rotation there and back. -/

/-- `op'` undoes `op`: run on the result and the flags of `op`, it gives the operand back, and all flags but `Z` and `N`,
which are then the operand's. -/
def Undoes (op' op : Byte → Flags → Byte × Flags) : Prop :=
  ∀ m f, op' (op m f).1 (op m f).2 = (m, f.setZN m)

theorem decide_bitNat_eq_one (b : Bool) : decide (bitNat b = 1) = b := by cases b <;> rfl

theorem bitNat_decide (p : Prop) [Decidable p] : bitNat (decide p) = if p then 1 else 0 := by
  simp only [bitNat, decide_eq_true_eq]

theorem aluRor_undoes_aluRol : Undoes aluRor aluRol := by
  intro m f
  have hm := m.isLt
  have hc := bitNat_le_one f.c
  have hback : BitVec.ofNat 8 ((BitVec.ofNat 8 (2 * m.toNat + bitNat f.c)).toNat / 2 +
      128 * bitNat (decide (128 ≤ m.toNat))) = m := by
    apply BitVec.eq_of_toNat_eq
    rw [BitVec.toNat_ofNat, BitVec.toNat_ofNat, bitNat_decide]
    split <;> omega
  have hcarry : decide ((BitVec.ofNat 8 (2 * m.toNat + bitNat f.c)).toNat % 2 = 1) = f.c := by
    have hparity : (2 * m.toNat + bitNat f.c) % 2 ^ 8 % 2 = bitNat f.c := by omega
    rw [BitVec.toNat_ofNat, hparity, decide_bitNat_eq_one]
  rw [aluRol_eq m f rfl, aluRor_eq _ _ hback.symm, hcarry, setZN_eq_zn]
  rfl

theorem aluRol_undoes_aluRor : Undoes aluRol aluRor := by
  intro m f
  have hm := m.isLt
  have hc := bitNat_le_one f.c
  have hback : BitVec.ofNat 8 (2 * (BitVec.ofNat 8 (m.toNat / 2 + 128 * bitNat f.c)).toNat +
      bitNat (decide (m.toNat % 2 = 1))) = m := by
    apply BitVec.eq_of_toNat_eq
    rw [BitVec.toNat_ofNat, BitVec.toNat_ofNat, bitNat_decide]
    split <;> omega
  have hcarry : decide (128 ≤ (BitVec.ofNat 8 (m.toNat / 2 + 128 * bitNat f.c)).toNat) = f.c := by
    have hhigh : 128 ≤ (m.toNat / 2 + 128 * bitNat f.c) % 2 ^ 8 ↔ bitNat f.c = 1 := by omega
    rw [BitVec.toNat_ofNat, decide_eq_decide.mpr hhigh, decide_bitNat_eq_one]
  rw [aluRor_eq m f rfl, aluRol_eq _ _ hback.symm, hcarry, setZN_eq_zn]
  rfl

/-- An operation on `A` and the one that undoes it restore `A`, and `C` with it. -/
theorem State.modifyA_restores {op op' : Byte → Flags → Byte × Flags} (h : Undoes op' op) (s : State) :
    ((s.modifyA op).modifyA op').a = s.a ∧ ((s.modifyA op).modifyA op').flags.c = s.flags.c := by
  have hundone : op' (s.modifyA op).a (s.modifyA op).flags = (s.a, s.flags.setZN s.a) := h s.a s.flags
  exact ⟨congrArg Prod.fst hundone, congrArg (fun p => p.2.c) hundone⟩

/-- The byte read after a modification of the byte at `ea`. -/
theorem State.memRead_modifyMem (s : State) (op : Byte → Flags → Byte × Flags) (ea a : Addr) :
    (s.modifyMem op ea).memRead a = if a = ea then (op (s.memRead ea) s.flags).1 else s.memRead a :=
  State.memRead_memWrite { s with flags := (op (s.memRead ea) s.flags).2 } ea a _

/-- An operation on a byte of memory and the one that undoes it restore `C` and all of memory. -/
theorem State.modifyMem_restores {op op' : Byte → Flags → Byte × Flags} (h : Undoes op' op) (s : State) (ea : Addr) :
    ((s.modifyMem op ea).modifyMem op' ea).flags.c = s.flags.c ∧
      ∀ a, ((s.modifyMem op ea).modifyMem op' ea).memRead a = s.memRead a := by
  have hundone : op' ((s.modifyMem op ea).memRead ea) (s.modifyMem op ea).flags =
      (s.memRead ea, s.flags.setZN (s.memRead ea)) := by
    rw [State.memRead_modifyMem, if_pos rfl, State.modifyMem_flags, h]
  constructor
  · rw [State.modifyMem_flags, hundone, Flags.setZN_c]
  · intro a
    rw [State.memRead_modifyMem, hundone, State.memRead_modifyMem]
    split
    case isTrue ha => rw [ha]
    case isFalse => rfl

/-- Settles O32: each rotate undoes the other, on `A` and on a byte of memory. -/
theorem rotatePairsRestore : Obligations.RotatePairsRestore := by
  intro s d8
  simp only [List.forall_mem_cons]
  constructor
  · exact ⟨⟨_, _, rfl, rfl, s.modifyA_restores aluRor_undoes_aluRol⟩,
      ⟨_, _, rfl, rfl, s.modifyA_restores aluRol_undoes_aluRor⟩, List.forall_mem_nil _⟩
  · exact ⟨⟨_, _, rfl, rfl, s.modifyMem_restores aluRor_undoes_aluRol (eaZp d8)⟩,
      ⟨_, _, rfl, rfl, s.modifyMem_restores aluRol_undoes_aluRor (eaZp d8)⟩, List.forall_mem_nil _⟩

end Sys2Proof.Machine
end

section
/-! PROOF. Loads, stores and transfers (43_load_store_transfer.md R130 to R141). The `SetZN` that a load and a transfer end with
is arithmetic (R18); a store has an effective address in each of its modes, and writes one byte there. -/

namespace Sys2Proof.Machine

/-- Settles O35: each load copies its operand byte into its register and sets `Z` and `N` from it. -/
theorem loadsSetZeroAndNegative : Obligations.LoadsSetZeroAndNegative := by
  refine ⟨encodingLine_of_samples (by decide +kernel), encodingLine_of_samples (by decide +kernel),
    encodingLine_of_samples (by decide +kernel), fun i s => ?_⟩
  simp only [← setZN_eq_zn]
  exact ⟨readsOperand_of_mnemonic (by decide) fun _ => rfl, readsOperand_of_mnemonic (by decide) fun _ => rfl,
    readsOperand_of_mnemonic (by decide) fun _ => rfl⟩

/-- Every mode but IMP, ACC, IMM, REL and IND has an effective address (R70). -/
theorem effectiveAddress_eq_some {am : Addressing} (s : State) (h : am.mode ∉ [Mode.imp, .acc, .imm, .rel, .ind]) :
    effectiveAddress am s = some (s.target am) := by
  cases am
  case imp | acc | imm | rel | ind => exact absurd h (by simp [Addressing.mode])
  all_goals rfl

/-- A store has an effective address in every form (R54, R133 to R135). -/
theorem effectiveAddress_of_store {i : Instr} (s : State) (h : i.mnemonic ∈ [Mnemonic.sta, .stx, .sty]) :
    effectiveAddress i.addressing s = some (s.target i.addressing) := by
  have hmodes : ∀ mn ∈ [Mnemonic.sta, .stx, .sty], ∀ md ∈ mn.modes, md ∉ [Mode.imp, .acc, .imm, .rel, .ind] := by decide
  exact effectiveAddress_eq_some s (hmodes _ h _ (mode_mem_modes i))

/-- A write to memory shows in the bytes alone, and there at its address alone (R32). -/
theorem State.memWrite_effect (s : State) (ea : Addr) (v : Byte) :
    hostSnapshot (s.memWrite ea v) = hostSnapshot s ∧ (s.memWrite ea v).memRead ea = v ∧
      ∀ a, a ≠ ea → (s.memWrite ea v).memRead a = s.memRead a := by
  refine ⟨rfl, ?_, fun a ha => ?_⟩
  · rw [State.memRead_memWrite, if_pos rfl]
  · rw [State.memRead_memWrite, if_neg ha]

/-- A store completes, and its effect is that of the one write of its register at the effective address. -/
theorem exec_store_effect {i : Instr} {s : State} {v : Byte}
    (h : (i.mnemonic = .sta ∧ v = s.a) ∨ (i.mnemonic = .stx ∧ v = s.x) ∨ (i.mnemonic = .sty ∧ v = s.y)) :
    ∃ ea t, effectiveAddress i.addressing s = some ea ∧ exec i s = .next t ∧ hostSnapshot t = hostSnapshot s ∧
      t.memRead ea = v ∧ ∀ a, a ≠ ea → t.memRead a = s.memRead a := by
  have hmn : i.mnemonic ∈ [Mnemonic.sta, .stx, .sty] := by
    rcases h with ⟨hmn, -⟩ | ⟨hmn, -⟩ | ⟨hmn, -⟩ <;> simp [hmn]
  have hea := effectiveAddress_of_store s hmn
  exact ⟨_, _, hea, exec_store hea h, s.memWrite_effect _ v⟩

/-- Settles O36: the three stores differ only in their register. -/
theorem storesWriteOneByte : Obligations.StoresWriteOneByte := by
  refine ⟨encodingLine_of_samples (by decide +kernel), encodingLine_of_samples (by decide +kernel),
    encodingLine_of_samples (by decide +kernel), fun i s => ⟨fun hmn => ?_, fun hmn => ?_, fun hmn => ?_⟩⟩
  · exact exec_store_effect (.inl ⟨hmn, rfl⟩)
  · exact exec_store_effect (.inr (.inl ⟨hmn, rfl⟩))
  · exact exec_store_effect (.inr (.inr ⟨hmn, rfl⟩))

/-- Settles O37: five of the transfers are the loads of a register's value; TXS copies `X` and nothing else. -/
theorem transfersCopyARegister : Obligations.TransfersCopyARegister := by
  refine ⟨encodingLine_of_samples (by decide +kernel), encodingLine_of_samples (by decide +kernel),
    encodingLine_of_samples (by decide +kernel), encodingLine_of_samples (by decide +kernel),
    encodingLine_of_samples (by decide +kernel), encodingLine_of_samples (by decide +kernel), fun s => ?_⟩
  simp only [← setZN_eq_zn]
  exact ⟨exec_eq_resultState .tax s, exec_eq_resultState .tay s, exec_eq_resultState .txa s, exec_eq_resultState .tya s,
    exec_eq_resultState .tsx s, exec_eq_resultState .txs s⟩

end Sys2Proof.Machine
end

section
/-! PROOF. Branches and jumps (44_control_flow.md R150 to R160): the target as arithmetic on the numbers of `pc`, of the offset
and of the pointer. -/

namespace Sys2Proof.Machine

/-- Two bytes joined, as a number (R35). -/
theorem joinBytes_eq_ofNat (hi lo : Byte) : joinBytes hi lo = BitVec.ofNat 16 (hi.toNat * 256 + lo.toNat) :=
  eq_ofNat_of_toNat_eq (joinBytes_toNat hi lo)

/-- The two bytes read from two addresses, joined as a number (R37). -/
theorem State.read16_eq_ofNat (s : State) (lo hi : Addr) :
    s.read16 lo hi = BitVec.ofNat 16 ((s.memRead hi).toNat * 256 + (s.memRead lo).toNat) :=
  joinBytes_eq_ofNat _ _

/-- The common rule of the branches, for an instruction whose branch is taken when `taken` holds (R150). -/
theorem exec_branch {i : Instr} {s : State} {condition : Bool} {d8 : Byte} {taken : Prop}
    (hexec : exec i s = .next (s.branchIf condition d8)) (htaken : taken ↔ condition = true) :
    (taken → exec i s = .next { s with pc := BitVec.ofInt 16 (s.pc.toNat + d8.toInt) }) ∧
      (¬taken → exec i s = .next s) := by
  rw [hexec, htaken, State.branchIf, branchTarget, add_sext16]
  exact ⟨fun h => by rw [if_pos h], fun h => by rw [if_neg h]⟩

/-- Settles O38: each branch is the common rule with the flag it tests, or with its negation. -/
theorem branchesAddASignedOffset : Obligations.BranchesAddASignedOffset := by
  refine ⟨encodingLine_of_samples (by decide +kernel), encodingLine_of_samples (by decide +kernel),
    encodingLine_of_samples (by decide +kernel), encodingLine_of_samples (by decide +kernel),
    encodingLine_of_samples (by decide +kernel), encodingLine_of_samples (by decide +kernel),
    encodingLine_of_samples (by decide +kernel), encodingLine_of_samples (by decide +kernel), fun s d8 => ?_⟩
  have hclear (b : Bool) : b = false ↔ (!b) = true := by rw [Bool.not_eq_true']
  simp only [List.forall_mem_cons]
  exact ⟨exec_branch rfl (hclear _), exec_branch rfl .rfl, exec_branch rfl .rfl, exec_branch rfl (hclear _),
    exec_branch rfl .rfl, exec_branch rfl (hclear _), exec_branch rfl (hclear _), exec_branch rfl .rfl,
    List.forall_mem_nil _⟩

/-- The pointer's second byte comes from the pointer's own page (R83, R160). -/
theorem indirectTarget_joinBytes (s : State) (hi lo : Byte) :
    indirectTarget s (joinBytes hi lo) = s.read16 (joinBytes hi lo) (joinBytes hi (lo + 1)) := by
  rw [indirectTarget, highByte_joinBytes, lowByte_joinBytes]

/-- Settles O39: the operand is the target, or the pointer to it. -/
theorem jumpsSetPc : Obligations.JumpsSetPc := by
  refine ⟨encodingLine_of_samples (by decide +kernel), fun s lo hi => ?_⟩
  rw [← joinBytes_eq_ofNat]
  refine ⟨rfl, ?_⟩
  have hnext : BitVec.ofNat 16 (hi.toNat * 256 + (lo.toNat + 1) % 256) = joinBytes hi (lo + 1) := by
    rw [joinBytes_eq_ofNat, BitVec.toNat_add]
    rfl
  rw [hnext, ← State.read16_eq_ofNat, ← indirectTarget_joinBytes]
  rfl

end Sys2Proof.Machine
end

section
/-! PROOF. The call and the software interrupt with their returns (44_control_flow.md R161 to R166, R195, R196): what lies in each
slot of the stack after the pushes, what the pulls bring back, and one after the other. -/

namespace Sys2Proof.Machine

/-- `v[15:8]` as a number (R35). -/
theorem highByte_toNat (v : Addr) : (highByte v).toNat = v.toNat / 256 := by
  have := v.isLt
  rw [highByte, BitVec.extractLsb'_toNat, Nat.shiftRight_eq_div_pow]
  omega

/-- `v[7:0]` as a number (R35). -/
theorem lowByte_toNat (v : Addr) : (lowByte v).toNat = v.toNat % 256 := by
  rw [lowByte, BitVec.extractLsb'_toNat, Nat.shiftRight_zero]

/-- Two decrements of SP in a row (R48). -/
theorem sp_sub_one_sub_one (sp : Byte) : sp - 1 - 1 = sp - 2 := BitVec.sub_sub sp 1 1

/-- Three decrements of SP in a row (R48). -/
theorem sp_sub_one_sub_one_sub_one (sp : Byte) : sp - 1 - 1 - 1 = sp - 3 := by bv_omega

/-- Two increments of SP in a row (R49). -/
theorem sp_add_one_add_one (sp : Byte) : sp + 1 + 1 = sp + 2 := BitVec.add_assoc sp 1 1

/-- A third increment of SP (R49). -/
theorem sp_add_two_add_one (sp : Byte) : sp + 2 + 1 = sp + 3 := BitVec.add_assoc sp 2 1

/-- Slots less than 256 pushes apart differ. -/
theorem stackAddr_sub_ne (sp : Byte) {k : Byte} (hk : k ≠ 0) : stackAddr (sp - k) ≠ stackAddr sp := by
  rw [Ne, stackAddr_inj]
  bv_omega

/-- The high byte of a pushed address lies at the old stack address, the low byte in the slot below (R35, R48). -/
theorem State.memRead_push16 (s : State) (v : Addr) :
    (s.push16 v).memRead (stackAddr s.sp) = highByte v ∧ (s.push16 v).memRead (stackAddr (s.sp - 1)) = lowByte v := by
  have hne : stackAddr s.sp ≠ stackAddr (s.sp - 1) := (stackAddr_sub_ne s.sp (by decide)).symm
  constructor
  · rw [State.push16_eq, State.memRead_push, State.push_sp, if_neg hne, State.memRead_push, if_pos rfl]
  · rw [State.push16_eq, State.memRead_push, State.push_sp, if_pos rfl]

/-- The interrupt entry leaves `pc` in the first two slots and the status byte below them (R163). -/
theorem State.memRead_enterInterrupt (s : State) :
    s.enterInterrupt.memRead (stackAddr s.sp) = highByte s.pc ∧
      s.enterInterrupt.memRead (stackAddr (s.sp - 1)) = lowByte s.pc ∧
      s.enterInterrupt.memRead (stackAddr (s.sp - 2)) = packP s.flags := by
  have hread (a : Addr) : s.enterInterrupt.memRead a =
      if a = stackAddr (s.sp - 1 - 1) then packP s.flags else (s.push16 s.pc).memRead a :=
    State.memRead_push (s.push16 s.pc) (packP s.flags) a
  obtain ⟨hhigh, hlow⟩ := s.memRead_push16 s.pc
  refine ⟨?_, ?_, ?_⟩
  · rw [hread, sp_sub_one_sub_one, if_neg (stackAddr_sub_ne s.sp (by decide)).symm, hhigh]
  · rw [hread, if_neg (stackAddr_sub_ne (s.sp - 1) (by decide)).symm, hlow]
  · rw [hread, sp_sub_one_sub_one, if_pos rfl]

/-- A pull of an address, as arithmetic on the two bytes of the stack (R162). -/
theorem State.pull16_eq_ofNat (s : State) :
    s.pull16 =
      (BitVec.ofNat 16 ((s.memRead (stackAddr (s.sp + 2))).toNat * 256 + (s.memRead (stackAddr (s.sp + 1))).toNat),
        { s with sp := s.sp + 2 }) := by
  rw [← joinBytes_eq_ofNat, ← sp_add_one_add_one]
  rfl

/-- A pull of an address brings back what was pushed, when SP and both bytes are as the pushes left them (R161, R162). -/
theorem State.pull16_of_pushed {u : State} {sp : Byte} {v : Addr} (hsp : u.sp = sp - 2)
    (hhigh : u.memRead (stackAddr sp) = highByte v) (hlow : u.memRead (stackAddr (sp - 1)) = lowByte v) :
    u.pull16 = (v, { u with sp := sp }) := by
  have hlowSlot : u.sp + 1 = sp - 1 := by bv_omega
  have hhighSlot : u.sp + 2 = sp := by bv_omega
  rw [State.pull16_eq_ofNat, hhighSlot, hlowSlot, hhigh, hlow, ← joinBytes_eq_ofNat, joinBytes_highByte_lowByte]

/-- The return from interrupt brings back what the entry pushed, when SP and the three bytes are as it left them (R163,
R164). -/
theorem State.returnFromInterrupt_of_pushed {u : State} {sp : Byte} {v : Addr} {f : Flags} (hsp : u.sp = sp - 3)
    (hhigh : u.memRead (stackAddr sp) = highByte v) (hlow : u.memRead (stackAddr (sp - 1)) = lowByte v)
    (hstatus : u.memRead (stackAddr (sp - 2)) = packP f) :
    u.returnFromInterrupt = { u with pc := v, sp := sp, flags := f } := by
  have hslot : u.sp + 1 = sp - 2 := by bv_omega
  have hpull : State.pull16 { u.pull.2 with flags := f } = (v, { u with sp := sp, flags := f }) :=
    State.pull16_of_pushed hslot hhigh hlow
  rw [State.returnFromInterrupt, State.pull_fst, hslot, hstatus, unpackP_packP, hpull]

/-- Settles O40: the two pushes of the return address less one, then the jump. -/
theorem jsrPushesReturnAddressMinusOne : Obligations.JsrPushesReturnAddressMinusOne := by
  refine ⟨encodingLine_of_samples (by decide +kernel), fun s a16 => ?_⟩
  obtain ⟨hhigh, hlow⟩ := s.memRead_push16 (s.pc - 1)
  have hret : (s.pc - 1).toNat = (s.pc.toNat + 65535) % 65536 := by bv_omega
  simp only [← stackAddr_eq_ofNat, ← hret, ← highByte_toNat, ← lowByte_toNat, ← sp_sub_one_sub_one]
  exact ⟨_, rfl, rfl, congrArg BitVec.toNat hhigh, congrArg BitVec.toNat hlow, fun a => exec_memRead_frame rfl⟩

/-- Settles O41: a pull of an address, then the increment. -/
theorem rtsPullsAndIncrements : Obligations.RtsPullsAndIncrements := by
  refine ⟨encodingLine_of_samples (by decide +kernel), fun s => ?_⟩
  have hexec : exec .rts s = .next { s.pull16.2 with pc := s.pull16.1 + 1 } := rfl
  have hpc (n : Nat) : BitVec.ofNat 16 n + 1 = BitVec.ofNat 16 (n + 1) := (BitVec.ofNat_add n 1).symm
  simp only [hexec, State.pull16_eq_ofNat, hpc, ← stackAddr_eq_ofNat]

/-- Settles O42: what JSR pushed is the return address less one, which RTS pulls and increments. -/
theorem jsrThenRtsReturns : Obligations.JsrThenRtsReturns := by
  intro s a16
  obtain ⟨hhigh, hlow⟩ := s.memRead_push16 (s.pc - 1)
  refine ⟨_, rfl, fun u hsp hmem => ?_⟩
  have hkept : ∀ a ∈ [stackAddr s.sp, stackAddr (s.sp - 1)], u.memRead a = (s.push16 (s.pc - 1)).memRead a := hmem
  have hpull : u.pull16 = (s.pc - 1, { u with sp := s.sp }) :=
    State.pull16_of_pushed (hsp.trans (sp_sub_one_sub_one s.sp)) ((hkept _ (by simp)).trans hhigh)
      ((hkept _ (by simp)).trans hlow)
  calc exec .rts u
      = .next { u.pull16.2 with pc := u.pull16.1 + 1 } := rfl
    _ = .next { u with pc := s.pc, sp := s.sp } := by rw [hpull, BitVec.sub_add_cancel]

/-- Settles O43: the three pushes change neither the vector nor the registers but SP. -/
theorem brkTakesTheSoftwareInterrupt : Obligations.BrkTakesTheSoftwareInterrupt := by
  refine ⟨encodingLine_of_samples (by decide +kernel), fun s => ?_⟩
  obtain ⟨hhigh, hlow, hstatus⟩ := s.memRead_enterInterrupt
  have hsnapshot : hostSnapshot s.enterInterrupt = { hostSnapshot s with
      pc := s.read16 Config.brkVectorLow Config.brkVectorHigh
      sp := s.sp - 3
      flags := { s.flags with i := true } } := by
    rw [State.enterInterrupt_eq, ← sp_sub_one_sub_one_sub_one]
    rfl
  rw [State.read16_eq_ofNat] at hsnapshot
  have hfirst : s.sp - 0 = s.sp := BitVec.sub_zero s.sp
  simp only [hfirst, ← stackAddr_eq_ofNat, ← highByte_toNat, ← lowByte_toNat, ← packP_toNat]
  exact ⟨s.enterInterrupt, rfl, hsnapshot, congrArg BitVec.toNat hhigh, congrArg BitVec.toNat hlow,
    congrArg BitVec.toNat hstatus, fun a => exec_memRead_frame rfl⟩

/-- Settles O44: the status byte's bits are the flags, and the two bytes above it are `pc`. -/
theorem rtiRestoresFlagsAndPc : Obligations.RtiRestoresFlagsAndPc := by
  refine ⟨encodingLine_of_samples (by decide +kernel), fun s => ?_⟩
  have hexec : exec .rti s = .next s.returnFromInterrupt := rfl
  simp only [hexec, State.returnFromInterrupt_eq, unpackP, getLsbD_eq_div_mod, joinBytes_eq_ofNat, stackAddr_eq_ofNat,
    sp_add_one_add_one, sp_add_two_add_one]

/-- Settles O45: the entry pushed `pc` and the flags as they were before it set `I`. -/
theorem brkThenRtiReturns : Obligations.BrkThenRtiReturns := by
  intro s
  obtain ⟨hhigh, hlow, hstatus⟩ := s.memRead_enterInterrupt
  refine ⟨s.enterInterrupt, rfl, fun u hsp hmem => ?_⟩
  have hkept : ∀ a ∈ [stackAddr s.sp, stackAddr (s.sp - 1), stackAddr (s.sp - 2)],
      u.memRead a = s.enterInterrupt.memRead a := hmem
  have hreturn : u.returnFromInterrupt = { u with pc := s.pc, sp := s.sp, flags := s.flags } :=
    State.returnFromInterrupt_of_pushed (hsp.trans (sp_sub_one_sub_one_sub_one s.sp)) ((hkept _ (by simp)).trans hhigh)
      ((hkept _ (by simp)).trans hlow) ((hkept _ (by simp)).trans hstatus)
  exact congrArg _ hreturn

end Sys2Proof.Machine
end

section
/-! PROOF. The pushes and pulls of the program, and the flag instructions with NOP (45_stack_flags_nop.md R170 to R181). -/

namespace Sys2Proof.Machine

/-- An instruction whose one act is a push: SP is less by 1, the byte lies at the old stack address, and nothing else
changes (R48). -/
theorem exec_push_effect {i : Instr} {s : State} {v : Byte} (hexec : exec i s = .next (s.push v)) :
    ∃ t, exec i s = .next t ∧ hostSnapshot t = { hostSnapshot s with sp := s.sp - 1 } ∧
      t.memRead (stackAddr s.sp) = v ∧ ∀ a, a ∉ storedAt i s → t.memRead a = s.memRead a := by
  refine ⟨s.push v, hexec, rfl, ?_, fun a => exec_memRead_frame hexec⟩
  rw [State.memRead_push, if_pos rfl]

/-- Settles O47: PHA and PHP are a push, of `A` and of the status byte. -/
theorem phaAndPhpPush : Obligations.PhaAndPhpPush := by
  refine ⟨encodingLine_of_samples (by decide +kernel), encodingLine_of_samples (by decide +kernel), fun s => ?_⟩
  simp only [← stackAddr_eq_ofNat, ← packP_toNat, BitVec.toNat_inj]
  exact ⟨exec_push_effect (exec_eq_resultState .pha s), exec_push_effect (exec_eq_resultState .php s)⟩

/-- Settles O48: PLA loads the pulled byte into `A`, and PLP unpacks it into the flags. -/
theorem plaAndPlpPull : Obligations.PlaAndPlpPull := by
  refine ⟨encodingLine_of_samples (by decide +kernel), encodingLine_of_samples (by decide +kernel), fun s => ?_⟩
  simp only [← stackAddr_eq_ofNat, ← setZN_eq_zn, ← getLsbD_eq_div_mod]
  exact ⟨exec_eq_resultState .pla s, exec_eq_resultState .plp s⟩

/-- Settles O51: each flag instruction forces its one flag, and NOP's result is the state itself. -/
theorem flagInstructionsAndNop : Obligations.FlagInstructionsAndNop :=
  ⟨encodingLine_of_samples (by decide +kernel), encodingLine_of_samples (by decide +kernel),
    encodingLine_of_samples (by decide +kernel), encodingLine_of_samples (by decide +kernel),
    encodingLine_of_samples (by decide +kernel), encodingLine_of_samples (by decide +kernel),
    encodingLine_of_samples (by decide +kernel), encodingLine_of_samples (by decide +kernel), fun s =>
    ⟨exec_eq_resultState .clc s, exec_eq_resultState .sec s, exec_eq_resultState .cli s, exec_eq_resultState .sei s,
      exec_eq_resultState .clv s, exec_eq_resultState .cld s, exec_eq_resultState .sed s, exec_eq_resultState .nop s⟩⟩

end Sys2Proof.Machine
end

section
/-! PROOF. A fault is not sticky, and the interrupt-disable flag masks nothing (60_exceptions.md R191 to R193, R195). -/

namespace Sys2Proof.Machine

/-- NOP where `pc` stands: the call answers `Ok` and only `pc` moves on (R181). -/
theorem hostStep_of_nop {s : State} (h : s.memRead s.pc = 0xEA) : hostStep s = (.ok, { s with pc := s.pc + 1 }) := by
  have hbytes : s.readBytes s.pc 3 = encode .nop ++ s.readBytes (s.pc + 1) 2 := by
    rw [State.readBytes, h]
    rfl
  have hdecode : decode (s.readBytes s.pc 3) = .ok (.nop, s.readBytes (s.pc + 1) 2) := by
    rw [hbytes, decodeOfEncode]
  exact hostStep_of_next (step_of_decode hdecode)

/-- Settles O9: the fault leaves a state that differs in `pc` alone, from which a call is like any other. -/
theorem faultIsNotSticky : Obligations.FaultIsNotSticky := by
  intro s hunmapped
  rw [hostStep_of_unmapped ((opcodeForm_eq_none_iff _).mpr hunmapped)]
  refine ⟨rfl, fun hnop => ?_⟩
  have hpc : s.pc + 1 + 1 = s.pc + 2 := BitVec.add_assoc s.pc 1 1
  rw [hostStep_of_nop hnop, hpc]

/-- The state `s` with `I` set to `b`. -/
def State.withI (s : State) (b : Bool) : State := { s with flags := { s.flags with i := b } }

/-- Every mnemonic but PHP and BRK, which pack the flags, commutes with a change of `I`, unless it writes `I` itself, and
then its result does not see the change. -/
theorem resultState_withI {mn : Mnemonic} (hphp : mn ≠ .php) (hbrk : mn ≠ .brk) (am : Addressing) (s : State) (b : Bool) :
    resultState mn am (s.withI b) =
      if mn ∈ [Mnemonic.sei, .cli, .plp, .rti] then resultState mn am s else (resultState mn am s).withI b := by
  have hoperand : (s.withI b).operand am = s.operand am := s.operand_flags am _
  have htarget : (s.withI b).target am = s.target am := s.target_flags am _
  have hjump : (s.withI b).jumpTarget am = s.jumpTarget am := s.jumpTarget_flags am _
  have hea : effectiveAddress am (s.withI b) = effectiveAddress am s := effectiveAddress_flags am s _
  cases mn
  case php => exact absurd rfl hphp
  case brk => exact absurd rfl hbrk
  case sei | cli | plp | rti => rfl
  case asl | lsr | rol | ror | inc | dec =>
    simp only [resultState, State.modify, hoperand, hea]
    rfl
  case bcc | bcs | beq | bne | bmi | bpl | bvc | bvs =>
    simp only [resultState, State.branch, hjump]
    rfl
  all_goals
    simp only [resultState, hoperand, htarget, hjump]
    rfl

/-- BRK shows the old `I` in the pushed status byte only: its registers, its flags and its target do not depend on it
(R163). -/
theorem enterInterrupt_withI_snapshot (s : State) (b : Bool) :
    hostSnapshot (s.withI b).enterInterrupt = hostSnapshot s.enterInterrupt := by
  rw [State.enterInterrupt_eq, State.enterInterrupt_eq]
  rfl

/-- The column of `I` in R24's table. -/
theorem flagRow_i_eq_dash {mn : Mnemonic} (h : mn ∉ [Mnemonic.brk, .sei, .cli, .plp, .rti]) : (flagRow mn).i = .dash := by
  cases mn
  case brk | sei | cli | plp | rti => exact absurd h (by decide)
  all_goals rfl

/-- Settles O26: the operations pass `I` on, BRK only pushes it, and R24's table lists its writers. -/
theorem interruptFlagMasksNothing : Obligations.InterruptFlagMasksNothing := by
  refine ⟨fun i s b hphp hbrk => ⟨_, exec_eq_resultState i s, ?_⟩,
    fun s b => ⟨_, _, exec_eq_resultState .brk s, exec_eq_resultState .brk (s.withI b),
      enterInterrupt_withI_snapshot s b⟩,
    fun i s hmn => ⟨_, exec_eq_resultState i s, ?_⟩⟩
  · rw [exec_eq_resultState]
    exact congrArg _ (resultState_withI hphp hbrk i.addressing s b)
  · have hrow : (flagRow i.mnemonic).i.Holds .i i s (resultState i.mnemonic i.addressing s) :=
      resultState_flagRow i s .i
    rwa [flagRow_i_eq_dash hmn] at hrow

end Sys2Proof.Machine
end

section
/-! PROOF. A run under each convention for its end: it makes its calls up to the first at which the convention ends it, or up
to the bound (70_reset_and_hazards.md R214; log entry 8). -/

namespace Sys2Proof.Machine

/-- A run that its convention ends at no call makes all `n`. -/
theorem hostRun_of_goesOn {c : EndOfRun} {n : Nat} {s : State} (h : ∀ j < n, ¬ c.endsAtCall s j = true) :
    hostRun c n s =
      { answers := (List.range n).map fun j => (hostStep (hostSteps j s)).1
        last := hostSteps n s
        ended := c == .fixedCount } := by
  simpa [hostRun_zero] using hostRun_add n 0 fun j hj => Bool.eq_false_iff.mpr (h j hj)

/-- A run that its convention first ends at call `k` makes the calls up to that one. -/
theorem hostRun_of_endsAtCall {c : EndOfRun} {n k : Nat} {s : State} (hk : k < n) (hend : c.endsAtCall s k = true)
    (h : ∀ j < k, ¬ c.endsAtCall s j = true) :
    hostRun c n s =
      { answers := (List.range (k + 1)).map fun j => (hostStep (hostSteps j s)).1
        last := hostSteps (k + 1) s
        ended := true } := by
  obtain ⟨m, rfl⟩ := Nat.exists_eq_add_of_lt hk
  have hfirst : c.endsAtCall (hostSteps k s) 0 = true := by
    rwa [EndOfRun.endsAtCall_zero, ← hostSteps_succ_last]
  rw [Nat.add_assoc, hostRun_add k (m + 1) fun j hj => Bool.eq_false_iff.mpr (h j hj), hostRun_succ_end m hfirst,
    List.range_succ, List.map_append, hostSteps_succ_last]
  rfl

/-- A call on a mapped byte answers `Ok` (R213). -/
theorem hostStep_answer_of_mapped {s : State} (h : s.memRead s.pc ∉ illegalBytes) : (hostStep s).1 = .ok := by
  have hanswer := stepAlwaysAnswers s
  rw [if_neg h] at hanswer
  obtain ⟨t, -, hcall⟩ := hanswer
  rw [hcall]

/-- A call answers a fault just on the unmapped bytes (R191). -/
theorem hostStep_isFault_iff (s : State) : (hostStep s).1.isFault = true ↔ s.memRead s.pc ∈ illegalBytes := by
  by_cases h : s.memRead s.pc ∈ illegalBytes
  · simp [hostStep_of_unmapped ((opcodeForm_eq_none_iff _).mpr h), CallResult.isFault, h]
  · simp [hostStep_answer_of_mapped h, CallResult.isFault, h]

/-- Convention (b) ends a run at a call that fetches an unmapped byte. -/
theorem firstFault_endsAtCall_iff (s : State) (k : Nat) :
    EndOfRun.firstFault.endsAtCall s k = true ↔ (hostSteps k s).memRead (hostSteps k s).pc ∈ illegalBytes :=
  hostStep_isFault_iff (hostSteps k s)

/-- Convention (c) ends a run at a call that leaves the whole state as it was. -/
theorem unchanged_endsAtCall_iff (s : State) (k : Nat) :
    EndOfRun.unchanged.endsAtCall s k = true ↔ hostSteps (k + 1) s = hostSteps k s :=
  decide_eq_true_iff

/-- As long as no unmapped byte is fetched, every answer is `Ok`. -/
theorem answers_of_mapped {k : Nat} {s : State}
    (h : ∀ j < k, (hostSteps j s).memRead (hostSteps j s).pc ∉ illegalBytes) :
    ((List.range k).map fun j => (hostStep (hostSteps j s)).1) = List.replicate k .ok := by
  rw [List.eq_replicate_iff]
  refine ⟨by simp, fun r hr => ?_⟩
  obtain ⟨j, hj, rfl⟩ := List.mem_map.mp hr
  exact hostStep_answer_of_mapped (h j (List.mem_range.mp hj))

/-- A run under convention (b) ends with the fault of the first unmapped byte it fetches. -/
theorem hostRun_firstFault_of_unmapped {n k : Nat} {s : State} (hk : k < n)
    (hunmapped : (hostSteps k s).memRead (hostSteps k s).pc ∈ illegalBytes)
    (hmapped : ∀ j < k, (hostSteps j s).memRead (hostSteps j s).pc ∉ illegalBytes) :
    hostRun .firstFault n s =
      { answers := List.replicate k .ok ++ [.fault ((hostSteps k s).memRead (hostSteps k s).pc) (hostSteps k s).pc]
        last := { hostSteps k s with pc := (hostSteps k s).pc + 1 }
        ended := true } := by
  rw [hostRun_of_endsAtCall hk ((firstFault_endsAtCall_iff s k).mpr hunmapped)
      fun j hj => mt (firstFault_endsAtCall_iff s j).mp (hmapped j hj),
    List.range_succ, List.map_append, answers_of_mapped hmapped, hostSteps_succ_last, List.map_singleton,
    hostStep_of_unmapped ((opcodeForm_eq_none_iff _).mpr hunmapped)]

/-- Settles O57: each clause is a run that its convention ends at call `k`, or one that it ends at none. -/
theorem runEndsByItsConvention : Obligations.RunEndsByItsConvention := by
  intro n s after answer unmapped
  refine ⟨?fixedCount, fun k hk => hostRun_firstFault_of_unmapped hk, ?firstFaultNone, ?unchanged, ?unchangedNone⟩
  case fixedCount => exact hostRun_of_goesOn fun _ _ => Bool.false_ne_true
  case firstFaultNone =>
    intro hmapped
    rw [hostRun_of_goesOn fun j hj => mt (firstFault_endsAtCall_iff s j).mp (hmapped j hj),
      answers_of_mapped hmapped]
    rfl
  case unchanged =>
    intro k hk hsame hchanged
    have hlast : hostSteps (k + 1) s = hostSteps k s := hsame
    rw [hostRun_of_endsAtCall hk ((unchanged_endsAtCall_iff s k).mpr hsame)
      fun j hj => mt (unchanged_endsAtCall_iff s j).mp (hchanged j hj), hlast]
  case unchangedNone =>
    intro hchanged
    exact hostRun_of_goesOn fun j hj => mt (unchanged_endsAtCall_iff s j).mp (hchanged j hj)

end Sys2Proof.Machine
end
